-- ==== Sys2Proof/Word.lean ====
section
/-! DEFINITION. The word types of IMGCORE (00_scope.md R8): a channel or BM cell is 8 bits, a host-visible register
32 bits, a GW entry 64 bits. -/

namespace Sys2Proof

/-- A BM cell or one channel of a pixel (R8). -/
abbrev Byte := BitVec 8

/-- A host-visible register, a bus address or a bus data word (R8). -/
abbrev Word := BitVec 32

end Sys2Proof
end

