-- ==== Sys2Proof/Config.lean ====
section
/-! DEFINITION. What one implementation of IMGCORE fixes (00_scope.md R7), and the free values: what the spec leaves
open and no proof may know. -/

namespace Sys2Proof

/-- One row of the sepia matrix, in thousandths: the weights of the old R, G and B (40_pixelbuffer.md R222). -/
structure SepiaRow where
  fromR : Nat
  fromG : Nat
  fromB : Nat
  deriving DecidableEq, Repr

/-- The four implementation parameters of 00_scope.md R7. A model "takes each as an argument": State carries them, and
no step changes them (assumption 1). -/
structure Config where
  pbCells   : Nat
  bmBytes   : Nat
  gaussRmax : Nat
  sepiaR    : SepiaRow
  sepiaG    : SepiaRow
  sepiaB    : SepiaRow
  deriving DecidableEq, Repr

/-- "each 0 <= m[i][j] <= 4000" (R7), for one row. -/
abbrev SepiaRow.legal (m : SepiaRow) : Prop :=
  m.fromR ≤ 4000 ∧ m.fromG ≤ 4000 ∧ m.fromB ≤ 4000

/-- The constraints of R7. -/
abbrev Config.legal (c : Config) : Prop :=
  (1 ≤ c.pbCells ∧ c.pbCells ≤ 2 ^ 26) ∧ (64 ≤ c.bmBytes ∧ c.bmBytes ≤ 2 ^ 24) ∧ c.gaussRmax ≤ 511 ∧
    c.sepiaR.legal ∧ c.sepiaG.legal ∧ c.sepiaB.legal

/-- The defaults of R7, with the sepia matrix of R222. -/
def Config.default : Config where
  pbCells   := 2 ^ 22
  bmBytes   := 2 ^ 24
  gaussRmax := 15
  sepiaR    := ⟨393, 769, 189⟩
  sepiaG    := ⟨349, 686, 168⟩
  sepiaB    := ⟨272, 534, 131⟩

/-- The number of GW entries, (2*GAUSS_RMAX + 1)^2 (10_state.md R66). -/
def Config.gwEntries (c : Config) : Nat := (2 * c.gaussRmax + 1) ^ 2

/-- FREE VALUE (assumption 2): the content of the undefined BM byte `address` of the power-up `epoch`
(10_state.md R64, 93 U7). -/
opaque Config.freeBm : (epoch address : Nat) → Byte

/-- FREE VALUE (assumption 2): the content of the undefined byte `offset` of GW, of the power-up `epoch` (R64, U7). -/
opaque Config.freeGw : (epoch offset : Nat) → Byte

/-- FREE VALUE (assumption 2): the content of the undefined PB cell `index`, of the power-up or PB_ALLOC `epoch`: R in
[7:0], G in [15:8], B in [23:16] (R64, U1, U7). -/
opaque Config.freePixel : (epoch index : Nat) → BitVec 24

/-- FREE VALUE (assumption 7): what the read number `draw` returns when it is refused while BUSY = 1
(70_reset_and_hazards.md R560, U10). -/
opaque Config.freeRead : (draw : Nat) → Word

/-- FREE VALUE (assumption 4): for how many turns of the host the command accepted as number `draw` stays BUSY before
its completion step (70_reset_and_hazards.md R570). -/
opaque Config.latency : (draw : Nat) → Nat

end Sys2Proof
end

