-- ==== Sys2Proof/Machine/State.lean ====
section
/-! DEFINITION. The state of IMGCORE as plain data (10_state.md), the errors a command can raise (60_exceptions.md
R501), what the host can do (20_memory.md R104), and the state after reset (70_reset_and_hazards.md R550). -/

namespace Sys2Proof.Machine

/-- "three unsigned 8-bit channels" (10_state.md R60). -/
structure Pixel where
  r : Byte
  g : Byte
  b : Byte
  deriving DecidableEq, Repr

/-- A memory: the defined cells, at strictly rising addresses, nothing listed where the content is undefined
(10_state.md R64). `epoch` names the power-up (for PB also the PB_ALLOC) that the undefined content comes from
(assumptions 2 and 3). For BM and GW a cell is a Host.Cell. -/
structure Memory (α : Type) where
  cells : List (Nat × α)
  epoch : Nat
  deriving DecidableEq, Repr

/-- The pixel buffer: PB_H, PB_W, PB_OFFSET and the cell store CELL[0 .. PB_CELLS-1] (10_state.md R42, R43, R60). -/
structure PixelBuffer where
  h      : Word
  w      : Word
  offset : Word
  cells  : Memory Pixel
  deriving DecidableEq, Repr

/-- The registers that a command samples when CMD is accepted (10_state.md R39, R46, R47, R49, R51). The fields that
read 0 by rule (bits 31..16 of CM_F*, bits 31..8 of K*) are no storage. -/
structure Operands where
  srcAddr : Word
  srcLen  : Word
  dstAddr : Word
  dstCap  : Word
  dimH    : Word
  dimW    : Word
  arg0    : Word
  arg1    : Word
  arg2    : Word
  arg3    : Word
  cmFr    : BitVec 16
  cmFg    : BitVec 16
  cmFb    : BitVec 16
  gaussR  : Word
  k       : Vector Byte 9
  a7ph    : Vector Word 7
  a7pw    : Vector Word 7
  deriving DecidableEq, Repr

/-- The IHDR registers (10_state.md R50). -/
structure Ihdr where
  w : Word
  h : Word
  b : Word
  i : Byte
  deriving DecidableEq, Repr

/-- The registers that only commands write: OUT_LEN (10_state.md R40), BMP_FLAGS.TOPDOWN (R45), CRC_OUT (R48) and the
IHDR registers (R50). -/
structure Results where
  outLen  : Word
  topdown : Bool
  crcOut  : Word
  ihdr    : Ihdr
  deriving DecidableEq, Repr

/-- The stored fields of STATUS (10_state.md R34) and ERR_INFO (R41). BUSY is whether the engine holds a command (R67),
and ERR is `ERR_CLASS != 0`: neither is stored twice. -/
structure Status where
  done      : Bool
  haz       : Bool
  buserr    : Bool
  pixerr    : Bool
  errClass  : BitVec 4
  errDetail : BitVec 8
  errInfo   : Word
  deriving DecidableEq, Repr

/-- What a command takes as its inputs when CMD is accepted: "a copy of every operand register" and GW (10_state.md
R67), PB, whose copy is the convolution snapshot (R68), and BM (70_reset_and_hazards.md R561). -/
structure Inputs where
  ops : Operands
  pb  : PixelBuffer
  bm  : Memory Byte
  gw  : Memory Byte
  deriving DecidableEq, Repr

/-- The engine in Busy: the accepted command word, the sampled inputs, and the turns of the host that are left before
the completion step (10_state.md R67, 70_reset_and_hazards.md R570, assumption 4). -/
structure Running where
  word   : Word
  inputs : Inputs
  delay  : Nat
  deriving DecidableEq, Repr

/-- The errors of 60_exceptions.md R501, each with the number that ERR_INFO reports for it. -/
inductive CmdError where
  | bmpMagic (magic : Nat)
  | bmpOffset (off : Nat)
  | bmpTrunc (need : Nat)
  | bmpDim (which : Nat)
  | pngSig
  | pngTrunc (need : Nat)
  | pngType (offset : Nat)
  | pngCrc (offset : Nat)
  | pngNoIhdr
  | pngIhdrParam (offset : Nat)
  | rgbShort (need : Nat)
  | slTrunc (need : Nat)
  | a7Dim (pass : Nat)
  | a7Trunc (need : Nat)
  | blackoutOob
  | filterType (value : Nat)
  | passCount (n : Nat)
  | capacity
  | bmBounds (window : Nat)
  | dstCap (n : Nat)
  | overlap
  | gaussRadius (r : Nat)
  | nonfinite (index : Nat)
  | opcode (word : Nat)
  | reservedBits (word : Nat)
  deriving DecidableEq, Repr

/-- The mapped registers of 10_state.md R31. -/
inductive RegName where
  | id | ctrl | status | cmd | srcAddr | srcLen | dstAddr | dstCap | outLen | errInfo | dimH | dimW
  | arg0 | arg1 | arg2 | arg3 | pbH | pbW | pbCount | pbOffset | pixRow | pixCol | pixData | bmpFlags
  | cmFr | cmFg | cmFb | gaussR | crcOut
  | k (i : Fin 9)
  | ihdrW | ihdrH | ihdrB | ihdrI
  | a7ph (i : Fin 7)
  | a7pw (i : Fin 7)
  deriving DecidableEq, Repr

/-- One thing the host or the platform does to the block. -/
inductive HostEvent where
  /-- A 32-bit word read (20_memory.md R104). -/
  | read (addr : Word)
  /-- A 32-bit word write with its 4-bit strobe (R104). -/
  | write (addr data : Word) (strobe : BitVec 4)
  /-- `wait` of 30_encoding.md R148: read STATUS until bit 0 (BUSY) reads 0. -/
  | wait
  /-- The platform asserts the reset input (70_reset_and_hazards.md R550). -/
  | hardReset
  deriving DecidableEq, Repr

/-- The state of IMGCORE. `cfg` is the implementation's configuration (assumption 1). `host`, `busData` and `draws`
are the model's own: what the host still has to do, what its last read returned, and the counter of the free values
(assumptions 4 to 7). -/
structure State where
  cfg     : Config
  ie      : Bool
  status  : Status
  cmd     : Word
  ops     : Operands
  pixRow  : Word
  pixCol  : Word
  res     : Results
  pb      : PixelBuffer
  bm      : Memory Byte
  gw      : Memory Byte
  engine  : Option Running
  host    : List HostEvent
  busData : Word
  draws   : Nat
  deriving DecidableEq, Repr

/-- The machine never stops with a fault: an error of a command completes it with a code (60_exceptions.md R503), and a
bad host access sets a sticky flag (R502). So there is no fault reason, and nothing raises one (safe). -/
inductive Fault : Type
  deriving DecidableEq, Repr

/-- Why a step has no meaning in this model. -/
inductive Refusal where
  /-- An arm of exec that has no meaning yet would raise it; no arm does (safe: the run stops). -/
  | notModelled (mnemonic : String)
  deriving DecidableEq, Repr

/-- What a step or an instruction's meaning answers. -/
abbrev Out := Host.Outcome State Fault Refusal

/-- Reset values of the operand registers (10_state.md R31). -/
def Operands.reset : Operands where
  srcAddr := 0
  srcLen  := 0
  dstAddr := 0
  dstCap  := 0
  dimH    := 0
  dimW    := 0
  arg0    := 0
  arg1    := 0
  arg2    := 0
  arg3    := 0
  cmFr    := 0x0100
  cmFg    := 0x0100
  cmFb    := 0x0100
  gaussR  := 0
  k       := Vector.replicate 9 0
  a7ph    := Vector.replicate 7 0
  a7pw    := Vector.replicate 7 0

/-- Reset values of the result registers (10_state.md R31). -/
def Results.reset : Results where
  outLen  := 0
  topdown := false
  crcOut  := 0
  ihdr    := ⟨0, 0, 0, 0⟩

/-- Reset values of STATUS and ERR_INFO (10_state.md R31). -/
def Status.reset : Status where
  done      := false
  haz       := false
  buserr    := false
  pixerr    := false
  errClass  := 0
  errDetail := 0
  errInfo   := 0

/-- The state right after a hardware reset of an implementation with the parameters `cfg` (70_reset_and_hazards.md
R550, R551): every register at its reset value, the engine Idle, PB empty, and every memory undefined. -/
def State.resetWith (cfg : Config) : State where
  cfg     := cfg
  ie      := false
  status  := Status.reset
  cmd     := 0
  ops     := Operands.reset
  pixRow  := 0
  pixCol  := 0
  res     := Results.reset
  pb      := ⟨0, 0, 54, ⟨[], 0⟩⟩
  bm      := ⟨[], 0⟩
  gw      := ⟨[], 0⟩
  engine  := none
  host    := []
  busData := 0
  draws   := 0

/-- The machine right after reset, with the default parameters of 00_scope.md R7. -/
def State.reset : State := State.resetWith Config.default

end Sys2Proof.Machine
end

