-- ==== Sys2Proof/Machine/Flags.lean ====
section
/-! DEFINITION. Every computation of STATUS, ERR_INFO and IRQ: the error codes (60_exceptions.md R500, R501), the word
STATUS reads as (10_state.md R34), its write-one-to-clear bits (R37), and the interrupt output (R69, R510). -/

namespace Sys2Proof.Machine

/-- ERR_CLASS of an error (60_exceptions.md R500): 2 FORMAT, 3 RANGE, 4 ILLEGAL. -/
def CmdError.errClass : CmdError → BitVec 4
  | .bmpMagic _ | .bmpOffset _ | .bmpTrunc _ | .bmpDim _ | .pngSig | .pngTrunc _ | .pngType _ | .pngCrc _ | .pngNoIhdr
  | .pngIhdrParam _ | .rgbShort _ | .slTrunc _ | .a7Dim _ | .a7Trunc _ => 2
  | .blackoutOob | .filterType _ | .passCount _ | .capacity | .bmBounds _ | .dstCap _ | .overlap | .gaussRadius _
  | .nonfinite _ => 3
  | .opcode _ | .reservedBits _ => 4

/-- ERR_DETAIL of an error (60_exceptions.md R501). -/
def CmdError.errDetail : CmdError → BitVec 8
  | .bmpMagic _ => 0x01
  | .bmpOffset _ => 0x02
  | .bmpTrunc _ => 0x03
  | .bmpDim _ => 0x04
  | .pngSig => 0x10
  | .pngTrunc _ => 0x11
  | .pngType _ => 0x12
  | .pngCrc _ => 0x13
  | .pngNoIhdr => 0x14
  | .pngIhdrParam _ => 0x15
  | .rgbShort _ => 0x20
  | .slTrunc _ => 0x21
  | .a7Dim _ => 0x22
  | .a7Trunc _ => 0x23
  | .blackoutOob => 0x01
  | .filterType _ => 0x02
  | .passCount _ => 0x03
  | .capacity => 0x04
  | .bmBounds _ => 0x05
  | .dstCap _ => 0x06
  | .overlap => 0x07
  | .gaussRadius _ => 0x08
  | .nonfinite _ => 0x09
  | .opcode _ => 0x01
  | .reservedBits _ => 0x02

/-- The information value of an error, an exact number (60_exceptions.md R501). -/
def CmdError.info : CmdError → Nat
  | .bmpMagic magic => magic
  | .bmpOffset off => off
  | .bmpTrunc need | .pngTrunc need | .rgbShort need | .slTrunc need | .a7Trunc need => need
  | .bmpDim which => which
  | .pngType offset | .pngCrc offset | .pngIhdrParam offset => offset
  | .pngNoIhdr => 8
  | .a7Dim pass => pass
  | .filterType value => value
  | .passCount n | .dstCap n => n
  | .bmBounds window => window
  | .gaussRadius r => r
  | .nonfinite index => index
  | .opcode word | .reservedBits word => word
  | .pngSig | .blackoutOob | .capacity | .overlap => 0

/-- "ERR_INFO holds min(value, 0xFFFF_FFFF)" (60_exceptions.md R501). -/
def CmdError.errInfo (e : CmdError) : Word := BitVec.ofNat 32 (min e.info 0xFFFFFFFF)

/-- The (class, detail) pairs of the table of 60_exceptions.md R501. -/
def errorCodes : List (BitVec 4 × BitVec 8) := [
  (2, 0x01), (2, 0x02), (2, 0x03), (2, 0x04), (2, 0x10), (2, 0x11), (2, 0x12), (2, 0x13), (2, 0x14), (2, 0x15),
  (2, 0x20), (2, 0x21), (2, 0x22), (2, 0x23),
  (3, 0x01), (3, 0x02), (3, 0x03), (3, 0x04), (3, 0x05), (3, 0x06), (3, 0x07), (3, 0x08), (3, 0x09),
  (4, 0x01), (4, 0x02)]

/-- STATUS.ERR: "Equal to ERR_CLASS != 0" (10_state.md R34). -/
def Status.err (st : Status) : Bool := st.errClass != 0

/-- The word a read of STATUS returns (10_state.md R34). -/
def Status.word (busy : Bool) (st : Status) : Word :=
  BitVec.ofNat 32 (busy.toNat + 2 * st.done.toNat + 4 * st.err.toNat + 8 * st.haz.toNat + 16 * st.buserr.toNat
    + 32 * st.pixerr.toNat + 2 ^ 8 * st.errClass.toNat + 2 ^ 16 * st.errDetail.toNat)

/-- A write of `v` to STATUS: "A write to STATUS changes only its W1C bits" DONE, HAZ, BUSERR and PIXERR (R34). -/
def Status.w1c (v : Word) (st : Status) : Status :=
  { st with
    done   := st.done && !v.getLsbD 1
    haz    := st.haz && !v.getLsbD 3
    buserr := st.buserr && !v.getLsbD 4
    pixerr := st.pixerr && !v.getLsbD 5 }

/-- The command life cycle at acceptance (10_state.md R35): DONE, ERR_CLASS, ERR_DETAIL and ERR_INFO become 0. -/
def Status.accepted (st : Status) : Status :=
  { st with done := false, errClass := 0, errDetail := 0, errInfo := 0 }

/-- Successful completion (10_state.md R35): DONE becomes 1. -/
def Status.completed (st : Status) : Status := { st with done := true }

/-- Error completion (60_exceptions.md R503): DONE becomes 1 and the error fields report `e`. -/
def Status.failed (e : CmdError) (st : Status) : Status :=
  { st with done := true, errClass := e.errClass, errDetail := e.errDetail, errInfo := e.errInfo }

/-- STATUS.BUSY: "Idle and Busy are what STATUS.BUSY shows" (10_state.md R67). -/
def State.busy (s : State) : Bool := s.engine.isSome

/-- The interrupt output: `CTRL.IE and STATUS.DONE` (10_state.md R69, 60_exceptions.md R510). -/
def State.irq (s : State) : Bool := s.ie && s.status.done

end Sys2Proof.Machine
end

