-- ==== Sys2Proof/Machine/Ops.lean ====
section
/-! DEFINITION. The named operations every command is made of: over memories (10_state.md R64, 20_memory.md R112), over
the pixel buffer (10_state.md R61), and the two ways a command completes (10_state.md R35, 60_exceptions.md R503). -/

namespace Sys2Proof.Machine

/-! ### Memories -/

/-- The canonical form: addresses strictly rising. An unlisted address is undefined, which no listed entry is. -/
abbrev Memory.wf {α : Type} (m : Memory α) : Prop := m.cells.Pairwise fun p q => p.1 < q.1

/-- No listed address reaches `n`. -/
abbrev Memory.below {α : Type} (n : Nat) (m : Memory α) : Prop := ∀ p ∈ m.cells, p.1 < n

/-- The entry at an address of a list of cells. -/
def lookupCell {α : Type} (a : Nat) : List (Nat × α) → Option α
  | [] => none
  | (b, v) :: rest => if b = a then some v else lookupCell a rest

/-- The defined content of a cell, `none` where it is undefined (10_state.md R64). -/
def Memory.get? {α : Type} (m : Memory α) (a : Nat) : Option α := lookupCell a m.cells

/-- What a read of a cell gives: its content, or the free draw of an undefined cell (10_state.md R64, 93 U1 and U7). -/
def Memory.read {α : Type} (free : Nat → Nat → α) (m : Memory α) (a : Nat) : α := (m.get? a).getD (free m.epoch a)

/-- The cells `a, a+1, …` with the contents `vs`. -/
def cellsFrom {α : Type} (a : Nat) : List α → List (Nat × α)
  | [] => []
  | v :: vs => (a, v) :: cellsFrom (a + 1) vs

/-- Write the contents `vs` to the cells `a .. a + vs.length - 1` and leave every other cell. -/
def Memory.write {α : Type} (a : Nat) (vs : List α) (m : Memory α) : Memory α :=
  { m with cells := m.cells.filter (fun p => p.1 < a) ++ cellsFrom a vs
      ++ m.cells.filter (fun p => a + vs.length ≤ p.1) }

/-- The cells `0 .. n - 1` become undefined, with new draws (40_pixelbuffer.md R206). -/
def Memory.forget {α : Type} (n : Nat) (m : Memory α) : Memory α where
  cells := m.cells.filter fun p => n ≤ p.1
  epoch := m.epoch + 1

/-- Every cell becomes undefined, with new draws (70_reset_and_hazards.md R550). -/
def Memory.powerUp {α : Type} (m : Memory α) : Memory α where
  cells := []
  epoch := m.epoch + 1

/-- A BM byte, drawn where it is undefined. -/
def bmByte (m : Memory Byte) (a : Nat) : Byte := m.read Config.freeBm a

/-- A byte of GW, drawn where it is undefined. -/
def gwByte (m : Memory Byte) (a : Nat) : Byte := m.read Config.freeGw a

/-! ### Pixels and images -/

/-- A pixel from 24 bits: R in [7:0], G in [15:8], B in [23:16] (10_state.md R44). -/
def Pixel.ofBits (v : BitVec 24) : Pixel := ⟨v.extractLsb' 0 8, v.extractLsb' 8 8, v.extractLsb' 16 8⟩

/-- `.ch[k]`: "for k = 0, 1, 2 means R, G, B in that order" (00_scope.md R12). -/
def Pixel.ch (p : Pixel) : Nat → Byte
  | 0 => p.r
  | 1 => p.g
  | _ => p.b

/-- The pixel whose channel k is `f k`. -/
def Pixel.ofCh (f : Nat → Byte) : Pixel := ⟨f 0, f 1, f 2⟩

/-- The bytes of a pixel in a flat RGB stream: "R, G, B in that order" (20_memory.md R108). -/
def Pixel.bytes (p : Pixel) : List Byte := [p.r, p.g, p.b]

/-- CELL[i], drawn where it is undefined (10_state.md R60, R64). -/
def PixelBuffer.cell (p : PixelBuffer) (i : Nat) : Pixel :=
  p.cells.read (fun epoch index => Pixel.ofBits (Config.freePixel epoch index)) i

/-- `PB[r][c]` is `CELL[r*W + c]` (10_state.md R61). -/
def PixelBuffer.px (p : PixelBuffer) (r c : Nat) : Pixel := p.cell (r * p.w.toNat + c)

/-- The rows of an h x w grid, one after another: the list whose entry r*w + c is `f r c` (10_state.md R61). -/
def gridOf {β : Type} (h w : Nat) (f : Nat → Nat → β) : List β := (List.range (h * w)).map fun i => f (i / w) (i % w)

/-- `clamp(x, lo, hi)` (00_scope.md R10). -/
def clamp (x lo hi : Int) : Int := min (max x lo) hi

/-- An integer clamped to 0..255, as a channel. -/
def channel (x : Int) : Byte := BitVec.ofNat 8 (clamp x 0 255).toNat

/-- "H, W <= 2^31 - 1 and H*W <= PB_CELLS, else RANGE(CAPACITY)" (10_state.md R62). -/
abbrev overCapacity (cfg : Config) (h w : Nat) : Prop := h > 2 ^ 31 - 1 ∨ w > 2 ^ 31 - 1 ∨ h * w > cfg.pbCells

/-! ### The parts of the state a command writes -/

/-- Replace the operand registers. -/
def State.setOps (o : Operands) (s : State) : State := { s with ops := o }

/-- Replace the registers that only commands write. -/
def State.setResults (r : Results) (s : State) : State := { s with res := r }

/-- Replace PB, its dimensions and PB_OFFSET. -/
def State.setImage (p : PixelBuffer) (s : State) : State := { s with pb := p }

/-- PB becomes the h x w image of `pixels`, with PB_OFFSET `offset` (10_state.md R42, R43). -/
def State.buildImage (h w : Nat) (offset : Word) (pixels : List Pixel) (s : State) : State :=
  { s with pb := ⟨BitVec.ofNat 32 h, BitVec.ofNat 32 w, offset, s.pb.cells.write 0 pixels⟩ }

/-- The pixels of the image change; its dimensions and PB_OFFSET do not. -/
def State.paint (pixels : List Pixel) (s : State) : State :=
  { s with pb := { s.pb with cells := s.pb.cells.write 0 pixels } }

/-- "A command that writes n output bytes writes exactly BM[DST_ADDR .. DST_ADDR + n - 1]" (20_memory.md R112), and
OUT_LEN is set to n (10_state.md R40). -/
def State.emit (dst n : Nat) (out : List Byte) (s : State) : State :=
  { s with bm := s.bm.write dst out, res := { s.res with outLen := BitVec.ofNat 32 n } }

/-! ### Acceptance and completion -/

/-- What a command samples at acceptance (70_reset_and_hazards.md R561). -/
def State.sample (s : State) : Inputs := ⟨s.ops, s.pb, s.bm, s.gw⟩

/-- The inputs of the running command: the copies taken at acceptance (10_state.md R67). With no command running they
are the live registers and memories (assumption 11). -/
def State.inputs (s : State) : Inputs :=
  match s.engine with
  | some e => e.inputs
  | none => s.sample

/-- An accepted CMD write (10_state.md R35, R38): CMD takes the word, the engine becomes Busy with the sampled inputs,
and DONE and the error fields become 0. -/
def State.start (w : Word) (delay : Nat) (s : State) : State :=
  { s with cmd := w, status := s.status.accepted, engine := some ⟨w, s.sample, delay⟩ }

/-- Acceptance with the free latency of 70_reset_and_hazards.md R570 (assumption 4). -/
def State.accept (w : Word) (s : State) : State :=
  { s.start w (Config.latency s.draws) with draws := s.draws + 1 }

/-- Successful completion, `done` (10_state.md R35): BUSY becomes 0 and DONE 1. -/
def State.finish (s : State) : State := { s with engine := none, status := s.status.completed }

/-- TAKING AN ERROR, "the block's equivalent of trap entry" (60_exceptions.md R503): BUSY becomes 0, DONE 1, the error
fields report `e`, and nothing else changes. No state is saved and no vector is taken, and "no return instruction
exists" (R505): the acknowledgement of the host is the W1C write of STATUS (Status.w1c). -/
def State.raise (e : CmdError) (s : State) : State := { s with engine := none, status := s.status.failed e }

/-- A command ends in `done`: its writes, made in `s`, are committed (00_scope.md R13). -/
def State.ok (s : State) : Out := .next s.finish

/-- A command ends in `raise`: none of its writes happens (00_scope.md R13). -/
def State.fail (e : CmdError) (s : State) : Out := .next (s.raise e)

end Sys2Proof.Machine
end

