-- ==== Sys2Proof/Machine/Operands.lean ====
section
/-! DEFINITION. Every operand form a command reads: registers as unsigned numbers, the signed fields of K0..K8 and CM_F*
(30_encoding.md R146), the source window F[k] with its byte orders (00_scope.md R10, R12, 20_memory.md R107), the
window checks (20_memory.md R110, R113), and the snapshot of PB (10_state.md R68). -/

namespace Sys2Proof.Machine

/-! ### The image -/

/-- `H`: PB_H "as sampled at acceptance" (00_scope.md R12). -/
def Inputs.h (x : Inputs) : Nat := x.pb.h.toNat

/-- `W`: PB_W as sampled at acceptance (00_scope.md R12). -/
def Inputs.w (x : Inputs) : Nat := x.pb.w.toNat

/-- `S[r][c]`: the pixel of the snapshot (00_scope.md R12, 10_state.md R68). -/
def Inputs.px (x : Inputs) (r c : Nat) : Pixel := x.pb.px r c

/-- An image of the size of PB whose pixel at (r, c) is `f r c`. -/
def Inputs.image (x : Inputs) (f : Nat → Nat → Pixel) : List Pixel := gridOf x.h x.w f

/-! ### Registers -/

/-- A register as the unsigned number it holds (30_encoding.md R146). -/
def Inputs.srcAddr (x : Inputs) : Nat := x.ops.srcAddr.toNat
def Inputs.srcLen (x : Inputs) : Nat := x.ops.srcLen.toNat
def Inputs.dstAddr (x : Inputs) : Nat := x.ops.dstAddr.toNat
def Inputs.dstCap (x : Inputs) : Nat := x.ops.dstCap.toNat
def Inputs.dimH (x : Inputs) : Nat := x.ops.dimH.toNat
def Inputs.dimW (x : Inputs) : Nat := x.ops.dimW.toNat

/-- Kernel element i, `sext_8(Ki[7:0])` (10_state.md R49). -/
def Inputs.kernel (x : Inputs) (i : Nat) : Int := (x.ops.k.toList.getD i 0).toInt

/-- The colour-mask factor of channel k in 256ths, `sext_16(CM_Fx[15:0])` (10_state.md R46, 40_pixelbuffer.md R220). -/
def Inputs.maskFactor (x : Inputs) : Nat → Int
  | 0 => x.ops.cmFr.toInt
  | 1 => x.ops.cmFg.toInt
  | _ => x.ops.cmFb.toInt

/-- A7_PHp for p = 1..7 (10_state.md R51). -/
def Inputs.a7ph (x : Inputs) (p : Nat) : Nat := (x.ops.a7ph.toList.getD (p - 1) 0).toNat

/-- A7_PWp for p = 1..7 (10_state.md R51). -/
def Inputs.a7pw (x : Inputs) (p : Nat) : Nat := (x.ops.a7pw.toList.getD (p - 1) 0).toNat

/-- The 64 bits of GW entry i: the low word at the lower address, little-endian (20_memory.md R103, R105). -/
def Inputs.gwBits (x : Inputs) (i : Nat) : BitVec 64 :=
  BitVec.ofNat 64 ((List.range 8).map fun k => 2 ^ (8 * k) * (gwByte x.gw (8 * i + k)).toNat).sum

/-! ### The source window -/

/-- `F[k]`: byte k of the source window (00_scope.md R12). -/
def Inputs.src (x : Inputs) (k : Nat) : Byte := bmByte x.bm (x.srcAddr + k)

/-- `F[a .. a+n-1]` (00_scope.md R12). -/
def Inputs.srcBytes (x : Inputs) (a n : Nat) : List Byte := (List.range n).map fun k => x.src (a + k)

/-- `le16(p)` (00_scope.md R10). -/
def Inputs.le16 (x : Inputs) (p : Nat) : Nat := (x.src p).toNat + 2 ^ 8 * (x.src (p + 1)).toNat

/-- `le32(p)` (00_scope.md R10). -/
def Inputs.le32 (x : Inputs) (p : Nat) : Nat := x.le16 p + 2 ^ 16 * x.le16 (p + 2)

/-- `le32s(p)`, `sext_32(le32(p))` (00_scope.md R10). -/
def Inputs.le32s (x : Inputs) (p : Nat) : Int := (BitVec.ofNat 32 (x.le32 p)).toInt

/-- `be32(p)` (00_scope.md R10). -/
def Inputs.be32 (x : Inputs) (p : Nat) : Nat :=
  2 ^ 24 * (x.src p).toNat + 2 ^ 16 * (x.src (p + 1)).toNat + 2 ^ 8 * (x.src (p + 2)).toNat + (x.src (p + 3)).toNat

/-- The pixel in the three bytes at k of the source window, in R, G, B order (20_memory.md R108). -/
def Inputs.srcRgb (x : Inputs) (k : Nat) : Pixel := ⟨x.src k, x.src (k + 1), x.src (k + 2)⟩

/-! ### Window checks -/

/-- The source window leaves BM (20_memory.md R110). -/
abbrev Inputs.srcOut (x : Inputs) (cfg : Config) : Prop := x.srcAddr + x.srcLen > cfg.bmBytes

/-- The destination window leaves BM (20_memory.md R110). -/
abbrev Inputs.dstOut (x : Inputs) (cfg : Config) : Prop := x.dstAddr + x.dstCap > cfg.bmBytes

/-- The two windows share a byte (20_memory.md R113). -/
abbrev Inputs.overlap (x : Inputs) : Prop :=
  x.srcLen > 0 ∧ x.dstCap > 0 ∧ x.srcAddr < x.dstAddr + x.dstCap ∧ x.dstAddr < x.srcAddr + x.srcLen

end Sys2Proof.Machine
end

