-- ==== Sys2Proof/Machine/Registers.lean ====
section
/-! DEFINITION. The register map (10_state.md R31 to R52): where each register lies, what a read of it returns, and what
a full-strobe write does while BUSY = 0; the pixel port (40_pixelbuffer.md R240, R241); and the soft reset
(70_reset_and_hazards.md R552). -/

namespace Sys2Proof.Machine

/-- The offset of a register in the register space (10_state.md R31). -/
def RegName.offset : RegName → Nat
  | .id => 0x000
  | .ctrl => 0x004
  | .status => 0x008
  | .cmd => 0x00C
  | .srcAddr => 0x010
  | .srcLen => 0x014
  | .dstAddr => 0x018
  | .dstCap => 0x01C
  | .outLen => 0x020
  | .errInfo => 0x024
  | .dimH => 0x028
  | .dimW => 0x02C
  | .arg0 => 0x030
  | .arg1 => 0x034
  | .arg2 => 0x038
  | .arg3 => 0x03C
  | .pbH => 0x040
  | .pbW => 0x044
  | .pbCount => 0x048
  | .pbOffset => 0x04C
  | .pixRow => 0x050
  | .pixCol => 0x054
  | .pixData => 0x058
  | .bmpFlags => 0x05C
  | .cmFr => 0x060
  | .cmFg => 0x064
  | .cmFb => 0x068
  | .gaussR => 0x06C
  | .crcOut => 0x070
  | .k i => 0x080 + 4 * i.val
  | .ihdrW => 0x0C0
  | .ihdrH => 0x0C4
  | .ihdrB => 0x0C8
  | .ihdrI => 0x0CC
  | .a7ph i => 0x100 + 4 * i.val
  | .a7pw i => 0x120 + 4 * i.val

/-- Every mapped register (10_state.md R31). -/
def allRegs : List RegName :=
  [.id, .ctrl, .status, .cmd, .srcAddr, .srcLen, .dstAddr, .dstCap, .outLen, .errInfo, .dimH, .dimW,
    .arg0, .arg1, .arg2, .arg3, .pbH, .pbW, .pbCount, .pbOffset, .pixRow, .pixCol, .pixData, .bmpFlags,
    .cmFr, .cmFg, .cmFb, .gaussR, .crcOut, .ihdrW, .ihdrH, .ihdrB, .ihdrI,
    .k 0, .k 1, .k 2, .k 3, .k 4, .k 5, .k 6, .k 7, .k 8,
    .a7ph 0, .a7ph 1, .a7ph 2, .a7ph 3, .a7ph 4, .a7ph 5, .a7ph 6,
    .a7pw 0, .a7pw 1, .a7pw 2, .a7pw 3, .a7pw 4, .a7pw 5, .a7pw 6]

/-- The register at an offset, none where "Any other offset in 0x000..0xFFF is unmapped" (10_state.md R31, R52). -/
def regAt (offset : Nat) : Option RegName := allRegs.find? fun r => r.offset == offset

/-- ID, "the constant 0x494D_4701" (10_state.md R32). -/
def idValue : Word := 0x494D4701

/-- PIX_ROW and PIX_COL name a pixel of the image (40_pixelbuffer.md R240, R241). -/
abbrev State.pixIn (s : State) : Prop := s.pixRow.toNat < s.pb.h.toNat ∧ s.pixCol.toNat < s.pb.w.toNat

/-- What PIX_DATA reads in the image: `{0x00, p.B, p.G, p.R}` (40_pixelbuffer.md R240). -/
def Pixel.word (p : Pixel) : Word := BitVec.ofNat 32 (p.r.toNat + 2 ^ 8 * p.g.toNat + 2 ^ 16 * p.b.toNat)

/-- The pixel that a write of `v` to PIX_DATA stores: bits [31:24] are ignored (40_pixelbuffer.md R241). -/
def Pixel.ofWord (v : Word) : Pixel := Pixel.ofBits (v.setWidth 24)

/-- The value a read of a register returns while the access is served; reserved fields read 0 (10_state.md R52). For
PIX_DATA it is 0 outside the image (40_pixelbuffer.md R240). -/
def State.readReg (r : RegName) (s : State) : Word :=
  match r with
  | .id => idValue
  | .ctrl => BitVec.ofNat 32 s.ie.toNat
  | .status => s.status.word s.busy
  | .cmd => s.cmd
  | .srcAddr => s.ops.srcAddr
  | .srcLen => s.ops.srcLen
  | .dstAddr => s.ops.dstAddr
  | .dstCap => s.ops.dstCap
  | .outLen => s.res.outLen
  | .errInfo => s.status.errInfo
  | .dimH => s.ops.dimH
  | .dimW => s.ops.dimW
  | .arg0 => s.ops.arg0
  | .arg1 => s.ops.arg1
  | .arg2 => s.ops.arg2
  | .arg3 => s.ops.arg3
  | .pbH => s.pb.h
  | .pbW => s.pb.w
  | .pbCount => BitVec.ofNat 32 (s.pb.h.toNat * s.pb.w.toNat)
  | .pbOffset => s.pb.offset
  | .pixRow => s.pixRow
  | .pixCol => s.pixCol
  | .pixData => if s.pixIn then (s.pb.px s.pixRow.toNat s.pixCol.toNat).word else 0
  | .bmpFlags => BitVec.ofNat 32 s.res.topdown.toNat
  | .cmFr => s.ops.cmFr.setWidth 32
  | .cmFg => s.ops.cmFg.setWidth 32
  | .cmFb => s.ops.cmFb.setWidth 32
  | .gaussR => s.ops.gaussR
  | .crcOut => s.res.crcOut
  | .k i => (s.ops.k.get i).setWidth 32
  | .ihdrW => s.res.ihdr.w
  | .ihdrH => s.res.ihdr.h
  | .ihdrB => s.res.ihdr.b
  | .ihdrI => s.res.ihdr.i.setWidth 32
  | .a7ph i => s.ops.a7ph.get i
  | .a7pw i => s.ops.a7pw.get i

/-- Set the sticky flag PIXERR (40_pixelbuffer.md R240, R241). -/
def State.setPixerr (s : State) : State := { s with status := { s.status with pixerr := true } }

/-- The soft reset (70_reset_and_hazards.md R552): every register takes its reset value, and "PB cells, BM and GW keep
their contents". -/
def State.softReset (s : State) : State :=
  { s with
    ie     := false
    status := Status.reset
    cmd    := 0
    ops    := Operands.reset
    pixRow := 0
    pixCol := 0
    res    := Results.reset
    pb     := { s.pb with h := 0, w := 0, offset := 54 }
    engine := none }

/-- A write of CTRL: SRST performs the soft reset, and then "IE ends at its reset value 0"; otherwise IE takes bit 0
(10_state.md R33). -/
def State.writeCtrl (v : Word) (s : State) : State :=
  if v.getLsbD 1 then s.softReset else { s with ie := v.getLsbD 0 }

/-- A write through the pixel port (40_pixelbuffer.md R241). -/
def State.writePixel (v : Word) (s : State) : State :=
  if s.pixIn then
    { s with pb := { s.pb with
        cells := s.pb.cells.write (s.pixRow.toNat * s.pb.w.toNat + s.pixCol.toNat) [Pixel.ofWord v] } }
  else s.setPixerr

/-- A full-strobe write of a register that is served. "RO: read-only. A write is ignored and sets no flag" (10_state.md
R31); fields that read 0 ignore their bits (R46, R49). -/
def State.writeReg (r : RegName) (v : Word) (s : State) : State :=
  match r with
  | .ctrl => s.writeCtrl v
  | .status => { s with status := s.status.w1c v }
  | .cmd => s.accept v
  | .srcAddr => s.setOps { s.ops with srcAddr := v }
  | .srcLen => s.setOps { s.ops with srcLen := v }
  | .dstAddr => s.setOps { s.ops with dstAddr := v }
  | .dstCap => s.setOps { s.ops with dstCap := v }
  | .dimH => s.setOps { s.ops with dimH := v }
  | .dimW => s.setOps { s.ops with dimW := v }
  | .arg0 => s.setOps { s.ops with arg0 := v }
  | .arg1 => s.setOps { s.ops with arg1 := v }
  | .arg2 => s.setOps { s.ops with arg2 := v }
  | .arg3 => s.setOps { s.ops with arg3 := v }
  | .pixRow => { s with pixRow := v }
  | .pixCol => { s with pixCol := v }
  | .pixData => s.writePixel v
  | .cmFr => s.setOps { s.ops with cmFr := v.setWidth 16 }
  | .cmFg => s.setOps { s.ops with cmFg := v.setWidth 16 }
  | .cmFb => s.setOps { s.ops with cmFb := v.setWidth 16 }
  | .gaussR => s.setOps { s.ops with gaussR := v }
  | .k i => s.setOps { s.ops with k := s.ops.k.set i.val (v.setWidth 8) }
  | .a7ph i => s.setOps { s.ops with a7ph := s.ops.a7ph.set i.val v }
  | .a7pw i => s.setOps { s.ops with a7pw := s.ops.a7pw.set i.val v }
  | .id | .outLen | .errInfo | .pbH | .pbW | .pbCount | .pbOffset | .bmpFlags | .crcOut | .ihdrW | .ihdrH | .ihdrB
  | .ihdrI => s

end Sys2Proof.Machine
end

