-- ==== Sys2Proof/Machine/Bus.lean ====
section
/-! DEFINITION. The host bus (20_memory.md R100 to R106), the BUSY hazard (70_reset_and_hazards.md R560), the hardware
reset (R550, R553), and the turn of the host in a step. -/

namespace Sys2Proof.Machine

/-- What a mapped bus address reaches (20_memory.md R101): a register, byte `offset` of GW, or byte `offset` of BM. -/
inductive Target where
  | reg (r : RegName)
  | gw (offset : Nat)
  | bm (offset : Nat)
  deriving DecidableEq, Repr

/-- The bus address map, none where an address is unmapped (20_memory.md R101 to R103). -/
def busTarget (cfg : Config) (addr : Word) : Option Target :=
  let a := addr.toNat
  if a < 0x1000 then (regAt a).map .reg
  else if a < 0x01000000 then (if a < 0x1000 + 8 * cfg.gwEntries then some (.gw (a - 0x1000)) else none)
  else if a < 0x01000000 + cfg.bmBytes then some (.bm (a - 0x01000000))
  else none

/-- The target of an access that is aligned and mapped; none is BUSERR (20_memory.md R104 (a), (b)). -/
def busAccess (cfg : Config) (addr : Word) : Option Target :=
  if addr.toNat % 4 ≠ 0 then none else busTarget cfg addr

/-- Little-endian lanes: the word of the bytes `f 0 .. f 3` (20_memory.md R105). -/
def laneWord (f : Nat → Byte) : Word :=
  BitVec.ofNat 32 ((f 0).toNat + 2 ^ 8 * (f 1).toNat + 2 ^ 16 * (f 2).toNat + 2 ^ 24 * (f 3).toNat)

/-- "byte lane k, bits [8k+7:8k]" of a bus word (20_memory.md R105). -/
def lane (data : Word) (k : Nat) : Byte := data.extractLsb' (8 * k) 8

/-- Write byte lane `k` of a word at byte offset `o` if its strobe bit is set and the memory has the byte
(20_memory.md R104, assumption 8). -/
def writeLane (size o : Nat) (data : Word) (strobe : BitVec 4) (k : Nat) (m : Memory Byte) : Memory Byte :=
  if strobe.getLsbD k && decide (o + k < size) then m.write (o + k) [lane data k] else m

/-- "A BM or GW write with a partial strobe writes only the enabled bytes" (20_memory.md R104). -/
def writeLanes (size o : Nat) (data : Word) (strobe : BitVec 4) (m : Memory Byte) : Memory Byte :=
  writeLane size o data strobe 3 (writeLane size o data strobe 2
    (writeLane size o data strobe 1 (writeLane size o data strobe 0 m)))

/-- A misaligned, unmapped or partial-strobe access sets BUSERR (20_memory.md R104). -/
def State.setBuserr (s : State) : State := { s with status := { s.status with buserr := true } }

/-- An access refused while BUSY = 1 sets HAZ (70_reset_and_hazards.md R560). -/
def State.setHaz (s : State) : State := { s with status := { s.status with haz := true } }

/-- The word a served read returns. -/
def State.readTarget (t : Target) (s : State) : Word :=
  match t with
  | .reg r => s.readReg r
  | .gw o => laneWord fun k => gwByte s.gw (o + k)
  | .bm o => laneWord fun k => bmByte s.bm (o + k)

/-- "a read of PIX_DATA can set STATUS.PIXERR" (20_memory.md R106): the one side effect of a served read. -/
def State.readEffect (t : Target) (s : State) : State :=
  match t with
  | .reg .pixData => if s.pixIn then s else s.setPixerr
  | .reg _ | .gw _ | .bm _ => s

/-- The reads that are "normal" while BUSY = 1: ID, CTRL and STATUS (70_reset_and_hazards.md R560). -/
def readableWhileBusy : Target → Bool
  | .reg .id | .reg .ctrl | .reg .status => true
  | .reg _ | .gw _ | .bm _ => false

/-- The writes that are "normal" while BUSY = 1: STATUS, and CTRL with SRST = 0 (70_reset_and_hazards.md R560). -/
def writableWhileBusy (t : Target) (data : Word) : Bool :=
  match t with
  | .reg .status => true
  | .reg .ctrl => !data.getLsbD 1
  | .reg _ | .gw _ | .bm _ => false

/-- A host read (20_memory.md R104, R106; 70_reset_and_hazards.md R560): the returned word goes to `busData`. A refused
read returns a free value (assumption 7). -/
def State.busRead (addr : Word) (s : State) : State :=
  match busAccess s.cfg addr with
  | none => { s.setBuserr with busData := 0 }
  | some t =>
    if s.busy && !readableWhileBusy t then
      { s.setHaz with busData := Config.freeRead s.draws, draws := s.draws + 1 }
    else { s.readEffect t with busData := s.readTarget t }

/-- A write that is served, to a register with full strobe or to GW or BM by lanes (20_memory.md R104). -/
def State.writeTarget (t : Target) (data : Word) (strobe : BitVec 4) (s : State) : State :=
  match t with
  | .reg r => s.writeReg r data
  | .gw o => { s with gw := writeLanes (8 * s.cfg.gwEntries) o data strobe s.gw }
  | .bm o => { s with bm := writeLanes s.cfg.bmBytes o data strobe s.bm }

/-- "it is a register write whose strobe is not 0b1111" (20_memory.md R104 (c)). -/
def partialRegWrite : Target → BitVec 4 → Bool
  | .reg _, strobe => strobe != 0xF
  | .gw _, _ | .bm _, _ => false

/-- A host write (20_memory.md R104, R106; 70_reset_and_hazards.md R560). The BUSERR conditions come first: "Such an
access does not also set HAZ" (R560). -/
def State.busWrite (addr data : Word) (strobe : BitVec 4) (s : State) : State :=
  match busAccess s.cfg addr with
  | none => s.setBuserr
  | some t =>
    if partialRegWrite t strobe then s.setBuserr
    else if s.busy && !writableWhileBusy t data then s.setHaz
    else s.writeTarget t data strobe

/-- The bus address of a register (20_memory.md R101). -/
def RegName.addr (r : RegName) : Word := BitVec.ofNat 32 r.offset

/-- One round of `wait` (30_encoding.md R148): read STATUS; the wait goes on while bit 0 reads 1. -/
def State.poll (s : State) : State :=
  let t := s.busRead RegName.status.addr
  if t.busData.getLsbD 0 then { t with host := .wait :: t.host } else t

/-- The hardware reset (70_reset_and_hazards.md R550, R553): the state of State.resetWith, with every memory undefined
anew. A running command is abandoned. The host's own data stays (assumption 12). -/
def State.hardReset (s : State) : State :=
  { State.resetWith s.cfg with
    pb      := ⟨0, 0, 54, s.pb.cells.powerUp⟩
    bm      := s.bm.powerUp
    gw      := s.gw.powerUp
    host    := s.host
    busData := s.busData
    draws   := s.draws }

/-- What one thing the host does makes of the block. -/
def State.serve (ev : HostEvent) (s : State) : State :=
  match ev with
  | .read addr => s.busRead addr
  | .write addr data strobe => s.busWrite addr data strobe
  | .wait => s.poll
  | .hardReset => s.hardReset

/-- The turn of the host: "Host accesses are performed one at a time, in the order the host issues them" (20_memory.md
R120). With nothing to do the state stays (60_exceptions.md R525). -/
def State.hostTurn (s : State) : State :=
  match s.host with
  | [] => s
  | ev :: rest => State.serve ev { s with host := rest }

end Sys2Proof.Machine
end

