-- ==== Sys2Proof/Syntax.lean ====
section
/-! DEFINITION. The commands of IMGCORE: one constructor per row of 30_encoding.md R143. -/

namespace Sys2Proof

/-- A command. Only three carry an operand in the command word, the OPT byte of 30_encoding.md R141; every other
operand lives in an operand register (10_state.md R39). -/
inductive Instr where
  | nop
  | pbClear
  | pbAlloc
  | pbLoadRgb
  | pbStoreRgb
  | pbBlackout
  | pbGrey
  | pbGreyLuma
  | pbColorMask
  | pbSepia
  | pbReflectH
  | pbReflectV
  | bmpDecode
  | bmpEncode
  /-- `norm` is OPT[0]: divide by the valid-neighbour count (R141). -/
  | conv3 (norm : Bool)
  | edges
  | gauss
  | pngParse
  | crc32
  /-- `t` is the filter type, `zext_8(OPT)` (R141); values above 4 are legal encodings. -/
  | slFilter (t : Nat)
  | slDefilter
  | a7Split
  /-- `n` is the pass count, `zext_8(OPT)` (R141); 0 and values above 7 are legal encodings. -/
  | a7Merge (n : Nat)
  deriving DecidableEq, Repr

end Sys2Proof
end

