-- ==== Sys2Proof/WellFormed.lean ====
section
/-! DEFINITION. Which terms of Instr an encoding exists for: the OPT operand is one byte (30_encoding.md R140, R141). -/

namespace Sys2Proof

/-- A term of Instr is well formed when its OPT operand, if it has one, fits the byte [15:8] of the word. -/
abbrev Instr.wf : Instr → Prop
  | .slFilter t => t < 256
  | .a7Merge n => n < 256
  | .nop | .pbClear | .pbAlloc | .pbLoadRgb | .pbStoreRgb | .pbBlackout | .pbGrey | .pbGreyLuma | .pbColorMask
  | .pbSepia | .pbReflectH | .pbReflectV | .bmpDecode | .bmpEncode | .conv3 _ | .edges | .gauss | .pngParse | .crc32
  | .slDefilter | .a7Split => True

end Sys2Proof
end

