-- ==== Sys2Proof/Decode.lean ====
section
/-! DEFINITION. The command decoder (30_encoding.md R140 to R145), total on every word and rejecting by name, and the
encoder written from the same rules. -/

namespace Sys2Proof

/-- Why a word encodes no command (30_encoding.md R142). -/
inductive DecodeError where
  /-- The OP byte is not in the table of R143. -/
  | opcode
  /-- RSV is not 0, or OPT has a bit outside LEGAL_OPT (R145). -/
  | reservedBits
  deriving DecidableEq, Repr

/-- One row of R143 with its "legal OPT bits" of R141 and the command that an OPT byte selects. -/
structure OpRow where
  op       : Byte
  legalOpt : Byte
  build    : Byte → Instr

/-- The opcode map of 30_encoding.md R143 with the legal OPT bits of R141. -/
def opTable : List OpRow := [
  ⟨0x00, 0x00, fun _ => .nop⟩,
  ⟨0x10, 0x00, fun _ => .pbClear⟩,
  ⟨0x11, 0x00, fun _ => .pbAlloc⟩,
  ⟨0x12, 0x00, fun _ => .pbLoadRgb⟩,
  ⟨0x13, 0x00, fun _ => .pbStoreRgb⟩,
  ⟨0x14, 0x00, fun _ => .pbBlackout⟩,
  ⟨0x15, 0x00, fun _ => .pbGrey⟩,
  ⟨0x16, 0x00, fun _ => .pbGreyLuma⟩,
  ⟨0x17, 0x00, fun _ => .pbColorMask⟩,
  ⟨0x18, 0x00, fun _ => .pbSepia⟩,
  ⟨0x19, 0x00, fun _ => .pbReflectH⟩,
  ⟨0x1A, 0x00, fun _ => .pbReflectV⟩,
  ⟨0x20, 0x00, fun _ => .bmpDecode⟩,
  ⟨0x21, 0x00, fun _ => .bmpEncode⟩,
  ⟨0x30, 0x01, fun opt => .conv3 (opt.getLsbD 0)⟩,
  ⟨0x31, 0x00, fun _ => .edges⟩,
  ⟨0x32, 0x00, fun _ => .gauss⟩,
  ⟨0x40, 0x00, fun _ => .pngParse⟩,
  ⟨0x41, 0x00, fun _ => .crc32⟩,
  ⟨0x50, 0xFF, fun opt => .slFilter opt.toNat⟩,
  ⟨0x51, 0x00, fun _ => .slDefilter⟩,
  ⟨0x60, 0x00, fun _ => .a7Split⟩,
  ⟨0x61, 0xFF, fun opt => .a7Merge opt.toNat⟩]

/-- The fields of CMDW (R140). -/
def opField (w : Word) : Byte := w.extractLsb' 0 8
def optField (w : Word) : Byte := w.extractLsb' 8 8
def rsvField (w : Word) : BitVec 16 := w.extractLsb' 16 16

/-- The row of R143 for an OP byte. -/
def opRow (op : Byte) : Option OpRow := opTable.find? fun r => r.op == op

/-- Decoding, with its checks in the order of 30_encoding.md R142. -/
def decode (w : Word) : Except DecodeError Instr :=
  match opRow (opField w) with
  | none => .error .opcode
  | some r =>
    if rsvField w ≠ 0 then .error .reservedBits
    else if optField w &&& ~~~ r.legalOpt ≠ 0 then .error .reservedBits
    else .ok (r.build (optField w))

/-- The OP byte of a command (R143). -/
def Instr.op : Instr → Byte
  | .nop => 0x00
  | .pbClear => 0x10
  | .pbAlloc => 0x11
  | .pbLoadRgb => 0x12
  | .pbStoreRgb => 0x13
  | .pbBlackout => 0x14
  | .pbGrey => 0x15
  | .pbGreyLuma => 0x16
  | .pbColorMask => 0x17
  | .pbSepia => 0x18
  | .pbReflectH => 0x19
  | .pbReflectV => 0x1A
  | .bmpDecode => 0x20
  | .bmpEncode => 0x21
  | .conv3 _ => 0x30
  | .edges => 0x31
  | .gauss => 0x32
  | .pngParse => 0x40
  | .crc32 => 0x41
  | .slFilter _ => 0x50
  | .slDefilter => 0x51
  | .a7Split => 0x60
  | .a7Merge _ => 0x61

/-- The OPT byte of a command (R141). -/
def Instr.opt : Instr → Byte
  | .conv3 norm => if norm then 1 else 0
  | .slFilter t => BitVec.ofNat 8 t
  | .a7Merge n => BitVec.ofNat 8 n
  | .nop | .pbClear | .pbAlloc | .pbLoadRgb | .pbStoreRgb | .pbBlackout | .pbGrey | .pbGreyLuma | .pbColorMask
  | .pbSepia | .pbReflectH | .pbReflectV | .bmpDecode | .bmpEncode | .edges | .gauss | .pngParse | .crc32
  | .slDefilter | .a7Split => 0

/-- `word(M)` of 30_encoding.md R148: `zext_32(OP) or (OPT << 8)`. -/
def encode (i : Instr) : Word := i.op.zeroExtend 32 ||| (i.opt.zeroExtend 32 <<< 8)

/-- What the decoder reads from a table word: the low `nbits` bits of `w`, the rest of the command word 0. -/
def decodeTableWord (nbits w : Nat) : Option Instr :=
  match decode (BitVec.ofNat 32 (w % 2 ^ nbits)) with
  | .ok i => some i
  | .error _ => none

end Sys2Proof
end

