-- ==== Sys2Proof/Machine/Adam7.lean ====
section
/-! DEFINITION. The Adam7 interlacer (45_adam7.md). -/

namespace Sys2Proof.Machine

/-- One row of the pass table: row start, column start, row step, column step (45_adam7.md R450). -/
structure Pass where
  rs : Nat
  cs : Nat
  dr : Nat
  dc : Nat
  deriving DecidableEq, Repr

/-- The pass table of 45_adam7.md R450, for p = 1..7. -/
def passSteps (p : Nat) : Pass :=
  [⟨0, 0, 8, 8⟩, ⟨0, 4, 8, 8⟩, ⟨4, 0, 8, 4⟩, ⟨0, 2, 4, 4⟩, ⟨2, 0, 4, 2⟩, ⟨0, 1, 2, 2⟩, ⟨1, 0, 2, 1⟩].getD (p - 1) ⟨0, 0, 1, 1⟩

/-- The 8 x 8 lookup table `PASS` (45_adam7.md R451). -/
def passTable : List (List Nat) := [
  [1, 6, 4, 6, 2, 6, 4, 6],
  [7, 7, 7, 7, 7, 7, 7, 7],
  [5, 6, 5, 6, 5, 6, 5, 6],
  [7, 7, 7, 7, 7, 7, 7, 7],
  [3, 6, 4, 6, 3, 6, 4, 6],
  [7, 7, 7, 7, 7, 7, 7, 7],
  [5, 6, 5, 6, 5, 6, 5, 6],
  [7, 7, 7, 7, 7, 7, 7, 7]]

/-- `PASS[r mod 8][c mod 8]` (45_adam7.md R451). -/
def passOf (r c : Nat) : Nat := (passTable.getD (r % 8) []).getD (c % 8) 0

/-- `ceil((n - start) / step)` if n > start, else 0 (45_adam7.md R452). -/
def reduced (n start step : Nat) : Nat := if n > start then (n - start + step - 1) / step else 0

/-- `PH_p(H)` (45_adam7.md R452). -/
def passH (p h : Nat) : Nat := reduced h (passSteps p).rs (passSteps p).dr

/-- `PW_p(W)` (45_adam7.md R452). -/
def passW (p w : Nat) : Nat := reduced w (passSteps p).cs (passSteps p).dc

/-- The bytes of passes 1..n of an h x w image: `3 * Σ_{p=1..n} PH_p*PW_p` (45_adam7.md R454, R462). -/
def passBytes (h w n : Nat) : Nat := 3 * ((List.range n).map fun q => passH (q + 1) h * passW (q + 1) w).sum

/-- `off_p`, the stream offset of pass p (45_adam7.md R454). -/
def passOffset (h w p : Nat) : Nat := passBytes h w (p - 1)

/-- Sub-image p of PB, row-major (45_adam7.md R453, R460). -/
def Inputs.subImage (x : Inputs) (p : Nat) : List Pixel :=
  gridOf (passH p x.h) (passW p x.w) fun u v =>
    x.px ((passSteps p).rs + u * (passSteps p).dr) ((passSteps p).cs + v * (passSteps p).dc)

/-- The stream of 45_adam7.md R454: the seven sub-images one after another. -/
def Inputs.a7Stream (x : Inputs) : List Byte :=
  (List.range 7).flatMap fun q => (x.subImage (q + 1)).flatMap Pixel.bytes

/-- A7_SPLIT (45_adam7.md R460). -/
def execA7Split (s : State) : Out :=
  let x := s.inputs
  let n := 3 * x.h * x.w
  if x.dstOut s.cfg then s.fail (.bmBounds 1)
  else if n > x.dstCap then s.fail (.dstCap n)
  else
    let t := s.emit x.dstAddr n x.a7Stream
    (t.setOps { s.ops with
      a7ph := Vector.ofFn fun q : Fin 7 => BitVec.ofNat 32 (passH (q.val + 1) x.h)
      a7pw := Vector.ofFn fun q : Fin 7 => BitVec.ofNat 32 (passW (q.val + 1) x.w) }).ok

/-- The first pass 1..n whose A7 registers differ from the reduced dimensions of an h x w image (45_adam7.md R462). -/
def Inputs.badPass (x : Inputs) (h w n : Nat) : Option Nat :=
  ((List.range n).map (· + 1)).find? fun p => decide (x.a7ph p ≠ passH p h ∨ x.a7pw p ≠ passW p w)

/-- Pixel (r, c) of a merge of passes 1..n into an h x w image: from its pass's sub-image, or (0, 0, 0) when its pass
is later than n (45_adam7.md R462, R463). -/
def Inputs.mergePixel (x : Inputs) (h w n r c : Nat) : Pixel :=
  let p := passOf r c
  if p ≤ n then
    let u := (r - (passSteps p).rs) / (passSteps p).dr
    let v := (c - (passSteps p).cs) / (passSteps p).dc
    x.srcRgb (passOffset h w p + 3 * (u * passW p w + v))
  else ⟨0, 0, 0⟩

/-- A7_MERGE.n (45_adam7.md R462). -/
def execA7Merge (n : Nat) (s : State) : Out :=
  let x := s.inputs
  let need := passBytes x.dimH x.dimW n
  if x.srcOut s.cfg then s.fail (.bmBounds 0)
  else if n < 1 ∨ n > 7 then s.fail (.passCount n)
  else if overCapacity s.cfg x.dimH x.dimW then s.fail .capacity
  else match x.badPass x.dimH x.dimW n with
    | some p => s.fail (.a7Dim p)
    | none =>
      if x.srcLen < need then s.fail (.a7Trunc need)
      else
        (s.buildImage x.dimH x.dimW 54 (gridOf x.dimH x.dimW fun r c => x.mergePixel x.dimH x.dimW n r c)).ok

end Sys2Proof.Machine
end

