-- ==== Sys2Proof/Machine/Bmp.lean ====
section
/-! DEFINITION. The BMP codec commands (41_bmp.md). -/

namespace Sys2Proof.Machine

/-- `pad(W)` (41_bmp.md R251). -/
def bmpPad (w : Nat) : Nat := (4 - (w * 3) % 4) % 4

/-- `stride(W)` (41_bmp.md R251). -/
def bmpStride (w : Nat) : Nat := 3 * w + bmpPad w

/-- The pixel in the three bytes B, G, R at k of the source window (41_bmp.md R255). -/
def Inputs.srcBgr (x : Inputs) (k : Nat) : Pixel := ⟨x.src (k + 2), x.src (k + 1), x.src k⟩

/-- The file row that buffer row i receives: file row i, or row H-1-i of a top-down file, which is reflected after the
read (41_bmp.md R256, R257). -/
def bmpFileRow (topdown : Bool) (h i : Nat) : Nat := if topdown then h - 1 - i else i

/-- The pixels that BMP_DECODE stores for a file with data offset `off` and size h x w (41_bmp.md R252, R255 to R257). -/
def Inputs.bmpPixels (x : Inputs) (off h w : Nat) (topdown : Bool) : List Pixel :=
  gridOf h w fun i j => x.srcBgr (off + bmpFileRow topdown h i * bmpStride w + 3 * j)

/-- BMP_DECODE (41_bmp.md R252): its checks in their order, then the whole image at once. -/
def execBmpDecode (s : State) : Out :=
  let x := s.inputs
  let off := x.le32 10
  let w := x.le32s 18
  let h := x.le32s 22
  let need := off + h.natAbs * bmpStride w.toNat
  if x.srcOut s.cfg then s.fail (.bmBounds 0)
  else if x.srcLen < 54 then s.fail (.bmpTrunc 54)
  else if x.src 0 ≠ 0x42 ∨ x.src 1 ≠ 0x4D then s.fail (.bmpMagic (x.le16 0))
  else if off < 54 then s.fail (.bmpOffset off)
  else if w < 0 then s.fail (.bmpDim 0)
  else if h = -(2 ^ 31) then s.fail (.bmpDim 1)
  else if h.natAbs * w.toNat > s.cfg.pbCells then s.fail .capacity
  else if x.srcLen < need then s.fail (.bmpTrunc need)
  else
    let t := s.buildImage h.natAbs w.toNat (BitVec.ofNat 32 off) (x.bmpPixels off h.natAbs w.toNat (decide (h < 0)))
    (t.setResults { s.res with topdown := decide (h < 0) }).ok

/-- `le(v, m)`: "the m bytes of v, least significant first" (41_bmp.md R262). -/
def leBytes (v m : Nat) : List Byte := (List.range m).map fun k => BitVec.ofNat 8 (v / 2 ^ (8 * k))

/-- The 54 header bytes of BMP_ENCODE (41_bmp.md R262): the 14-byte file header and the 40-byte info header. -/
def bmpHeader (n w h : Nat) : List Byte :=
  [0x42, 0x4D] ++ leBytes n 4 ++ leBytes 0 4 ++ leBytes 54 4
    ++ leBytes 40 4 ++ leBytes w 4 ++ leBytes h 4 ++ leBytes 1 2 ++ leBytes 24 2 ++ List.replicate 24 0

/-- File row i of BMP_ENCODE: "Its pixels are written as B, G, R, followed by pad(W) zero bytes" (41_bmp.md R263). -/
def Inputs.bmpRow (x : Inputs) (i : Nat) : List Byte :=
  ((List.range x.w).flatMap fun j => [(x.px i j).b, (x.px i j).g, (x.px i j).r]) ++ List.replicate (bmpPad x.w) 0

/-- BMP_ENCODE (41_bmp.md R260). -/
def execBmpEncode (s : State) : Out :=
  let x := s.inputs
  let n := 54 + x.h * bmpStride x.w
  if x.dstOut s.cfg then s.fail (.bmBounds 1)
  else if n > x.dstCap then s.fail (.dstCap n)
  else (s.emit x.dstAddr n (bmpHeader n x.w x.h ++ (List.range x.h).flatMap x.bmpRow)).ok

end Sys2Proof.Machine
end

