-- ==== Sys2Proof/Machine/Convolution.lean ====
section
/-! DEFINITION. The 3x3 convolution engine (42_convolution.md R300 to R312): CONV3 and EDGES. -/

namespace Sys2Proof.Machine

/-- `dr(i) = floor(i/3) - 1` (42_convolution.md R300). -/
def tapRow (i : Nat) : Int := (i / 3 : Nat) - 1

/-- `dc(i) = (i mod 3) - 1` (42_convolution.md R300). -/
def tapCol (i : Nat) : Int := (i % 3 : Nat) - 1

/-- The neighbour that kernel element i weights at (r, c), none where it "falls outside the image" (R301). -/
def tap (h w r c i : Nat) : Option (Nat × Nat) :=
  let rr := (r : Int) + tapRow i
  let cc := (c : Int) + tapCol i
  if 0 ≤ rr ∧ rr < h ∧ 0 ≤ cc ∧ cc < w then some (rr.toNat, cc.toNat) else none

/-- The valid neighbours of (r, c), each with its kernel index: outside neighbours are skipped (R301). -/
def taps (h w r c : Nat) : List (Nat × Nat × Nat) :=
  (List.range 9).filterMap fun i => (tap h w r c i).map fun q => (i, q.1, q.2)

/-- `cnt`: "track how many neighbors were actually summed" (R301). -/
def tapCount (h w r c : Nat) : Nat := (taps h w r c).length

/-- The weighted sum of channel `ch` over the valid neighbours of (r, c) in the snapshot (R301). -/
def Inputs.tapSum (x : Inputs) (weight : Nat → Int) (r c ch : Nat) : Int :=
  ((taps x.h x.w r c).map fun q => weight q.1 * ((x.px q.2.1 q.2.2).ch ch).toNat).sum

/-- The quantisation of CONV3: normalised (R302) or raw (R303). -/
def convQuant (norm : Bool) (sum : Int) (cnt : Nat) : Byte :=
  if norm then channel ((2 * sum + cnt) / (2 * cnt)) else channel sum

/-- CONV3 (42_convolution.md R301). -/
def execConv3 (norm : Bool) (s : State) : Out :=
  let x := s.inputs
  (s.paint (x.image fun r c =>
    Pixel.ofCh fun ch => convQuant norm (x.tapSum x.kernel r c ch) (tapCount x.h x.w r c))).ok

/-- GX (42_convolution.md R310). -/
def sobelX (i : Nat) : Int := [-1, 0, 1, -2, 0, 2, -1, 0, 1].getD i 0

/-- GY, the transpose of GX (42_convolution.md R310). -/
def sobelY (i : Nat) : Int := [-1, -2, -1, 0, 0, 0, 1, 2, 1].getD i 0

/-- The bits k-1 .. 0 of the root of n, below the bits already found in r. -/
def isqrtBits (n : Nat) : (k r : Nat) → Nat
  | 0, r => r
  | k + 1, r => isqrtBits n k (if (r + 2 ^ k) * (r + 2 ^ k) ≤ n then r + 2 ^ k else r)

/-- `isqrt(n)`: "the largest integer r with r*r <= n" (00_scope.md R10). -/
def isqrt (n : Nat) : Nat := isqrtBits n (n.log2 / 2 + 1) 0

/-- `Mag(s)`, the rounded and clamped square root (42_convolution.md R311). -/
def magnitude (s : Nat) : Nat :=
  let q := isqrt s
  min 255 (q + if s - q * q > q then 1 else 0)

/-- The Sobel magnitude of channel `ch` at (r, c) (42_convolution.md R310). -/
def Inputs.edgeMagnitude (x : Inputs) (r c ch : Nat) : Nat :=
  let gx := x.tapSum sobelX r c ch
  let gy := x.tapSum sobelY r c ch
  magnitude (gx * gx + gy * gy).toNat

/-- The threshold of EDGES: the magnitude replaces the channel when they differ by 100 or more (R310). -/
def edgeChannel (o : Byte) (m : Nat) : Byte := if ((o.toNat : Int) - m).natAbs ≥ 100 then BitVec.ofNat 8 m else o

/-- EDGES (42_convolution.md R310). -/
def execEdges (s : State) : Out :=
  let x := s.inputs
  (s.paint (x.image fun r c =>
    Pixel.ofCh fun ch => edgeChannel ((x.px r c).ch ch) (x.edgeMagnitude r c ch))).ok

end Sys2Proof.Machine
end

