-- ==== Sys2Proof/Machine/Float64.lean ====
section
/-! DEFINITION. IEEE 754 binary64 as far as GAUSS uses it (00_scope.md R11, R14): the value of a 64-bit pattern, and
`fadd`, `fmul`, `toF64`, `trunc` with rounding to nearest, ties to even (assumption 13). -/

namespace Sys2Proof.Machine

/-- A binary64 datum. `fin neg m e` is the finite number `(-1)^neg * m * 2^e`; with m = 0 it is the zero of that sign. -/
inductive F64 where
  | nan
  | inf (neg : Bool)
  | fin (neg : Bool) (m : Nat) (e : Int)
  deriving DecidableEq, Repr

/-- The datum of a 64-bit pattern: sign [63], exponent [62:52], fraction [51:0]. -/
def F64.ofBits (v : BitVec 64) : F64 :=
  let neg := v.getLsbD 63
  let ex := (v.extractLsb' 52 11).toNat
  let frac := (v.extractLsb' 0 52).toNat
  if ex = 2047 then (if frac = 0 then .inf neg else .nan)
  else if ex = 0 then .fin neg frac (-1074)
  else .fin neg (2 ^ 52 + frac) ((ex : Int) - 1075)

/-- `n / 2^k` rounded to the nearest integer, ties to even. -/
def shiftRoundEven (n k : Nat) : Nat :=
  let q := n / 2 ^ k
  let rem := n % 2 ^ k
  if 2 * rem > 2 ^ k ∨ (2 * rem = 2 ^ k ∧ q % 2 = 1) then q + 1 else q

/-- The number of bits of n, 0 for 0. -/
def bitLength (n : Nat) : Nat := if n = 0 then 0 else n.log2 + 1

/-- The binary64 datum nearest to the exact `(-1)^neg * m * 2^e`, ties to even: 53 bits of precision, least exponent
-1074, and infinity from 2^1024 on. An exact zero keeps its sign. -/
def F64.round (neg : Bool) (m : Nat) (e : Int) : F64 :=
  let e' := max (e + bitLength m - 53) (-1074)
  let q := shiftRoundEven m (e' - e).toNat
  let r := if e' ≤ e then F64.fin neg m e else F64.fin neg q e'
  let top := if e' ≤ e then e + bitLength m else e' + bitLength q
  if m = 0 then .fin neg 0 0 else if top > 1024 then .inf neg else r

/-- The finite datum `±m * 2^e` as an integer in units of 2^e0, for e0 ≤ e. -/
def signedUnits (neg : Bool) (m : Nat) (e e0 : Int) : Int :=
  let u : Int := (m * 2 ^ (e - e0).toNat : Nat)
  if neg then -u else u

/-- `fadd` (00_scope.md R11): an exact zero sum is +0 unless both operands are negative. -/
def F64.add : F64 → F64 → F64
  | .nan, _ => .nan
  | _, .nan => .nan
  | .inf a, .inf b => if a = b then .inf a else .nan
  | .inf a, .fin _ _ _ => .inf a
  | .fin _ _ _, .inf b => .inf b
  | .fin na ma ea, .fin nb mb eb =>
    let e0 := min ea eb
    let sum := signedUnits na ma ea e0 + signedUnits nb mb eb e0
    if sum = 0 then .fin (na && nb) 0 0 else F64.round (decide (sum < 0)) sum.natAbs e0

/-- `fmul` (00_scope.md R11): infinity times zero is NaN. -/
def F64.mul : F64 → F64 → F64
  | .nan, _ => .nan
  | _, .nan => .nan
  | .inf a, .inf b => .inf (a != b)
  | .inf a, .fin nb mb _ => if mb = 0 then .nan else .inf (a != nb)
  | .fin na ma _, .inf b => if ma = 0 then .nan else .inf (na != b)
  | .fin na ma ea, .fin nb mb eb => F64.round (na != nb) (ma * mb) (ea + eb)

/-- `toF64(n)` (00_scope.md R11), for a natural below 2^53. -/
def F64.ofNat (n : Nat) : F64 := .fin false n 0

/-- `clamp(x, 0.0, 255.0)` on a datum that is not NaN: "-inf gives 0 and +inf gives 255" (42_convolution.md R322). -/
def F64.clamp255 : F64 → F64
  | .nan => .nan
  | .inf neg => F64.ofNat (if neg then 0 else 255)
  | .fin neg m e =>
    if neg && m != 0 then F64.ofNat 0
    else if !neg && decide (signedUnits false m e (min e 0) > signedUnits false 255 0 (min e 0)) then F64.ofNat 255
    else .fin neg m e

/-- `trunc(x)` of a nonnegative finite x (00_scope.md R11). -/
def F64.truncNat : F64 → Nat
  | .fin _ m e => m * 2 ^ e.toNat / 2 ^ (-e).toNat
  | .nan | .inf _ => 0

/-- `ToPixelF(x) = trunc(fadd(clamp(x, 0.0, 255.0), 0.5))` (00_scope.md R14), none for a NaN (42_convolution.md R322). -/
def F64.toChannel (x : F64) : Option Byte :=
  if x = .nan then none else some (BitVec.ofNat 8 (x.clamp255.add (.fin false 1 (-1))).truncNat)

end Sys2Proof.Machine
end

