-- ==== Sys2Proof/Machine/Gauss.lean ====
section
/-! DEFINITION. The Gaussian blur evaluator (42_convolution.md R320 to R324). -/

namespace Sys2Proof.Machine

/-- The weight GW[i] (10_state.md R66). -/
def Inputs.weight (x : Inputs) (i : Nat) : F64 := F64.ofBits (x.gwBits i)

/-- `clamp(q + i - R, 0, n - 1)` on naturals: the edge replication of 42_convolution.md R323. -/
def edgeClamp (n q i radius : Nat) : Nat := min (q + i - radius) (n - 1)

/-- The pixel of the extended copy under kernel element i at (r, c) (R320, R323). -/
def Inputs.gaussTap (x : Inputs) (radius r c i : Nat) : Pixel :=
  x.px (edgeClamp x.h r (i / (2 * radius + 1)) radius) (edgeClamp x.w c (i % (2 * radius + 1)) radius)

/-- The accumulator of channel `ch` at (r, c): from +0.0, in increasing i (42_convolution.md R321). -/
def Inputs.gaussAcc (x : Inputs) (radius r c ch : Nat) : F64 :=
  (List.range ((2 * radius + 1) * (2 * radius + 1))).foldl
    (fun acc i => acc.add ((x.weight i).mul (F64.ofNat ((x.gaussTap radius r c i).ch ch).toNat))) (F64.ofNat 0)

/-- The output pixel at (r, c), none when some channel's accumulator is NaN (42_convolution.md R322). -/
def Inputs.gaussPixel (x : Inputs) (radius r c : Nat) : Option Pixel :=
  match (x.gaussAcc radius r c 0).toChannel, (x.gaussAcc radius r c 1).toChannel,
      (x.gaussAcc radius r c 2).toChannel with
  | some vr, some vg, some vb => some ⟨vr, vg, vb⟩
  | _, _, _ => none

/-- GAUSS (42_convolution.md R320): the radius check, then RANGE(NONFINITE) with "the index of the first pixel, in
row-major order, with a NaN channel", then the whole image. -/
def execGauss (s : State) : Out :=
  let x := s.inputs
  let radius := x.ops.gaussR.toNat
  if radius > s.cfg.gaussRmax then s.fail (.gaussRadius radius)
  else
    let pixels := gridOf x.h x.w fun r c => x.gaussPixel radius r c
    match pixels.findIdx? Option.isNone with
    | some i => s.fail (.nonfinite i)
    | none => (s.paint (pixels.filterMap id)).ok

end Sys2Proof.Machine
end

