-- ==== Sys2Proof/Machine/PixelBuffer.lean ====
section
/-! DEFINITION. The pixel buffer commands (40_pixelbuffer.md R200 to R227). Each meaning runs the checks of its rule in
their order and then commits (00_scope.md R13). -/

namespace Sys2Proof.Machine

/-- NOP (R201): "`cmd NOP` leaves every register except STATUS unchanged". -/
def execNop (s : State) : Out := s.ok

/-- PB_CLEAR (R205): the empty image; "CELL contents are not written". -/
def execPbClear (s : State) : Out := (s.setImage { s.pb with h := 0, w := 0, offset := 54 }).ok

/-- PB_ALLOC (R206): the image has the dimensions DIM_H x DIM_W and its cells are undefined. -/
def execPbAlloc (s : State) : Out :=
  let x := s.inputs
  if overCapacity s.cfg x.dimH x.dimW then s.fail .capacity
  else (s.setImage ⟨x.ops.dimH, x.ops.dimW, 54, s.pb.cells.forget (x.dimH * x.dimW)⟩).ok

/-- PB_LOAD_RGB (R207). -/
def execPbLoadRgb (s : State) : Out :=
  let x := s.inputs
  let need := 3 * x.dimH * x.dimW
  if x.srcOut s.cfg then s.fail (.bmBounds 0)
  else if overCapacity s.cfg x.dimH x.dimW then s.fail .capacity
  else if x.srcLen < need then s.fail (.rgbShort need)
  else
    (s.buildImage x.dimH x.dimW 54 (gridOf x.dimH x.dimW fun r c => x.srcRgb (3 * (r * x.dimW + c)))).ok

/-- PB_STORE_RGB (R208). -/
def execPbStoreRgb (s : State) : Out :=
  let x := s.inputs
  let n := 3 * x.h * x.w
  if x.dstOut s.cfg then s.fail (.bmBounds 1)
  else if n > x.dstCap then s.fail (.dstCap n)
  else (s.emit x.dstAddr n ((x.image x.px).flatMap Pixel.bytes)).ok

/-- Zero the cells of the columns c0..c1-1 in `n` rows from row `r` on, in an image of width `w` (R210). -/
def blackRows (w c0 c1 : Nat) (r n : Nat) (m : Memory Pixel) : Memory Pixel :=
  match n with
  | 0 => m
  | n + 1 => blackRows w c0 c1 (r + 1) n (m.write (r * w + c0) (List.replicate (c1 - c0) ⟨0, 0, 0⟩))

/-- PB_BLACKOUT (R210): the rows [r0, r1) and columns [c0, c1) become (0, 0, 0). An empty rectangle does nothing, and a
nonempty one that leaves the image is RANGE(BLACKOUT_OOB). -/
def execPbBlackout (s : State) : Out :=
  let x := s.inputs
  let r0 := x.ops.arg0.toNat
  let r1 := x.ops.arg1.toNat
  let c0 := x.ops.arg2.toNat
  let c1 := x.ops.arg3.toNat
  if r0 < r1 ∧ c0 < c1 then
    if r1 > x.h ∨ c1 > x.w then s.fail .blackoutOob
    else (s.setImage { s.pb with cells := blackRows x.w c0 c1 r0 (r1 - r0) s.pb.cells }).ok
  else s.ok

/-- The pixel with `v` in all three channels. -/
def greyOf (v : Nat) : Pixel := ⟨BitVec.ofNat 8 v, BitVec.ofNat 8 v, BitVec.ofNat 8 v⟩

/-- `v` of PB_GREY (R215). -/
def greyLevel (p : Pixel) : Nat := (10000 * p.r.toNat + 7152 * p.g.toNat + 10000 * p.b.toNat + 5000) / 30000

/-- PB_GREY (R215). -/
def execPbGrey (s : State) : Out :=
  let x := s.inputs
  (s.paint (x.image fun r c => greyOf (greyLevel (x.px r c)))).ok

/-- Part 1 of the list of 40_pixelbuffer.md R217. -/
def lumaExc1 : List (Nat × Nat × Nat) := [
  (1, 124, 133), (2, 207, 222), (2, 233, 6), (3, 235, 191), (4, 127, 136), (5, 210, 225), (5, 236, 9), (6, 47, 50),
  (6, 102, 170), (6, 238, 194), (7, 49, 235), (7, 75, 19), (8, 213, 228), (8, 239, 12), (9, 105, 173), (9, 241, 197),
  (10, 52, 238), (10, 78, 22), (10, 133, 142), (12, 108, 176), (12, 244, 200), (13, 136, 145), (14, 28, 90), (14, 164, 114),
  (15, 56, 59), (15, 247, 203), (17, 167, 117), (18, 59, 62), (18, 250, 206), (20, 115, 0), (20, 170, 120), (21, 62, 65),
  (21, 253, 209), (23, 118, 3), (23, 173, 123), (27, 68, 71), (27, 204, 95), (30, 126, 194), (31, 235, 67), (33, 129, 197),
  (34, 157, 166), (34, 238, 70), (36, 132, 200)]

/-- Part 2 of the list of 40_pixelbuffer.md R217. -/
def lumaExc2 : List (Nat × Nat × Nat) := [
  (37, 241, 73), (38, 133, 18), (39, 80, 83), (39, 135, 203), (40, 244, 76), (41, 136, 21), (42, 83, 86), (42, 138, 206),
  (43, 247, 79), (44, 139, 24), (45, 86, 89), (46, 169, 178), (46, 250, 82), (47, 142, 27), (48, 89, 92), (50, 119, 246),
  (50, 145, 30), (54, 95, 98), (54, 176, 2), (55, 178, 187), (57, 98, 101), (57, 179, 5), (58, 45, 166), (58, 126, 70),
  (60, 101, 104), (60, 182, 8), (61, 129, 73), (63, 104, 107), (63, 185, 11), (64, 51, 172), (65, 160, 45), (66, 188, 14),
  (67, 190, 199), (68, 82, 144), (69, 191, 17), (70, 193, 202), (72, 194, 20), (72, 249, 140), (73, 196, 205), (74, 33, 30),
  (75, 171, 239), (75, 197, 23), (75, 252, 143)]

/-- Part 3 of the list of 40_pixelbuffer.md R217. -/
def lumaExc3 : List (Nat × Nat × Nat) := [
  (76, 199, 208), (77, 91, 153), (78, 64, 2), (78, 174, 242), (78, 200, 26), (78, 255, 146), (79, 202, 211), (80, 94, 156),
  (81, 177, 245), (81, 203, 29), (82, 205, 214), (83, 97, 159), (83, 178, 63), (84, 180, 248), (84, 206, 32), (86, 100, 162),
  (87, 183, 251), (90, 212, 38), (92, 51, 48), (95, 190, 75), (98, 112, 174), (98, 193, 78), (99, 140, 143), (100, 249, 16),
  (101, 115, 177), (101, 196, 81), (103, 171, 115), (103, 252, 19), (104, 63, 60), (104, 118, 180), (104, 199, 84), (105, 91, 29),
  (106, 174, 118), (106, 255, 22), (107, 121, 183), (107, 202, 87), (109, 122, 1), (110, 124, 186), (110, 205, 90), (112, 125, 4),
  (112, 180, 124), (113, 208, 93), (114, 19, 134)]

/-- Part 4 of the list of 40_pixelbuffer.md R217. -/
def lumaExc4 : List (Nat × Nat × Nat) := [
  (115, 102, 223), (115, 128, 7), (116, 211, 96), (118, 105, 226), (118, 131, 10), (119, 214, 99), (121, 108, 229), (121, 134, 13),
  (122, 217, 102), (124, 111, 232), (124, 137, 16), (125, 220, 105), (126, 112, 50), (129, 115, 53), (131, 226, 111), (132, 118, 56),
  (135, 121, 59), (136, 204, 148), (138, 179, 182), (139, 207, 151), (140, 235, 120), (141, 182, 185), (142, 210, 154), (143, 102, 99),
  (143, 238, 123), (145, 213, 157), (146, 105, 102), (147, 188, 191), (148, 80, 136), (148, 216, 160), (151, 219, 163), (153, 194, 197),
  (154, 222, 166), (157, 34, 25), (157, 89, 145), (157, 225, 169), (160, 228, 172), (164, 178, 240), (164, 204, 24), (166, 179, 58),
  (166, 234, 178), (167, 126, 123), (167, 207, 27)]

/-- Part 5 of the list of 40_pixelbuffer.md R217. -/
def lumaExc5 : List (Nat × Nat × Nat) := [
  (170, 210, 30), (172, 185, 64), (172, 240, 184), (173, 213, 33), (174, 241, 2), (176, 190, 252), (176, 216, 36), (177, 244, 5),
  (179, 193, 255), (179, 219, 39), (180, 221, 224), (180, 247, 8), (181, 249, 193), (183, 224, 227), (183, 250, 11), (184, 252, 196),
  (185, 225, 45), (186, 227, 230), (186, 253, 14), (187, 119, 175), (187, 255, 199), (189, 230, 233), (191, 95, 27), (191, 231, 51),
  (192, 233, 236), (194, 98, 30), (195, 45, 95), (195, 236, 239), (196, 128, 184), (198, 48, 98), (198, 129, 2), (198, 239, 242),
  (201, 51, 101), (201, 242, 245), (202, 134, 190), (204, 54, 104), (204, 135, 8), (207, 57, 107), (207, 193, 131), (207, 248, 251),
  (208, 140, 196), (208, 221, 100), (209, 249, 69)]

/-- Part 6 of the list of 40_pixelbuffer.md R217. -/
def lumaExc6 : List (Nat × Nat × Nat) := [
  (210, 141, 14), (211, 143, 199), (211, 224, 103), (212, 252, 72), (213, 118, 233), (213, 199, 137), (214, 146, 202), (214, 227, 106),
  (215, 119, 51), (215, 255, 75), (216, 147, 20), (217, 149, 205), (217, 230, 109), (219, 150, 23), (220, 152, 208), (220, 233, 112),
  (221, 125, 57), (222, 153, 26), (224, 47, 156), (225, 20, 5), (225, 156, 29), (226, 158, 214), (226, 239, 118), (228, 133, 248),
  (228, 159, 32), (231, 136, 251), (232, 190, 4), (232, 245, 124), (233, 56, 165), (234, 165, 38), (236, 59, 168), (236, 140, 72),
  (239, 143, 75), (245, 68, 177), (245, 149, 81), (248, 71, 180), (248, 207, 204), (249, 235, 173), (251, 74, 183), (251, 155, 87),
  (252, 238, 176), (253, 75, 1), (255, 241, 179)]

/-- LUMA_EXC, the 258 inputs (R, G, B) of 40_pixelbuffer.md R217. -/
def lumaExc : List (Nat × Nat × Nat) := lumaExc1 ++ lumaExc2 ++ lumaExc3 ++ lumaExc4 ++ lumaExc5 ++ lumaExc6

/-- `v` of PB_GREY_LUMA (R216): one less than the exact quotient on the members of LUMA_EXC. -/
def lumaLevel (p : Pixel) : Nat :=
  (2126 * p.r.toNat + 7152 * p.g.toNat + 722 * p.b.toNat + 5000) / 30000
    - (if lumaExc.contains (p.r.toNat, p.g.toNat, p.b.toNat) then 1 else 0)

/-- PB_GREY_LUMA (R216). -/
def execPbGreyLuma (s : State) : Out :=
  let x := s.inputs
  (s.paint (x.image fun r c => greyOf (lumaLevel (x.px r c)))).ok

/-- A channel under a colour-mask factor in 256ths (R220, its pseudocode: assumption 18); `/` on Int with a positive divisor
is floorDiv. -/
def maskChannel (factor : Int) (v : Byte) : Byte := channel ((v.toNat : Int) * factor / 256)

/-- PB_COLOR_MASK (R220). -/
def execPbColorMask (s : State) : Out :=
  let x := s.inputs
  (s.paint (x.image fun r c => Pixel.ofCh fun k => maskChannel (x.maskFactor k) ((x.px r c).ch k))).ok

/-- One output channel of PB_SEPIA (R223). -/
def sepiaChannel (m : SepiaRow) (p : Pixel) : Byte :=
  channel (((m.fromR * p.r.toNat + m.fromG * p.g.toNat + m.fromB * p.b.toNat) / 1000 : Nat) : Int)

/-- PB_SEPIA (R223): "all three outputs use the old values". -/
def execPbSepia (s : State) : Out :=
  let x := s.inputs
  (s.paint (x.image fun r c =>
    ⟨sepiaChannel s.cfg.sepiaR (x.px r c), sepiaChannel s.cfg.sepiaG (x.px r c), sepiaChannel s.cfg.sepiaB (x.px r c)⟩)).ok

/-- PB_REFLECT_H (R226): "the result is PB'[r][c] = PB[r][W-1-c] for every pixel". -/
def execPbReflectH (s : State) : Out :=
  let x := s.inputs
  (s.paint (x.image fun r c => x.px r (x.w - 1 - c))).ok

/-- PB_REFLECT_V (R227): "the result is PB'[r][c] = PB[H-1-r][c]". -/
def execPbReflectV (s : State) : Out :=
  let x := s.inputs
  (s.paint (x.image fun r c => x.px (x.h - 1 - r) c)).ok

end Sys2Proof.Machine
end

