-- ==== Sys2Proof/Machine/Png.lean ====
section
/-! DEFINITION. The PNG chunk reader and the CRC-32 verifier (43_png_chunk.md). -/

namespace Sys2Proof.Machine

/-- One of the 8 steps of a CRC table entry (43_png_chunk.md R356). -/
def crcStep (c : Word) : Word := if c.getLsbD 0 then 0xEDB88320 ^^^ (c >>> 1) else c >>> 1

/-- `n` steps of R356. -/
def crcSteps : Nat → Word → Word
  | 0, c => c
  | n + 1, c => crcSteps n (crcStep c)

/-- `T[n]`, the CRC table (43_png_chunk.md R356). -/
def crcTable (n : Byte) : Word := crcSteps 8 (n.zeroExtend 32)

/-- The CRC register after one more byte (43_png_chunk.md R355). -/
def crcByte (c : Word) (b : Byte) : Word := crcTable ((c ^^^ b.zeroExtend 32).setWidth 8) ^^^ (c >>> 8)

/-- `CRC32(b)` (43_png_chunk.md R355). -/
def crc32Of (bytes : List Byte) : Word := bytes.foldl crcByte 0xFFFFFFFF ^^^ 0xFFFFFFFF

/-- CRC32 (43_png_chunk.md R370). -/
def execCrc32 (s : State) : Out :=
  let x := s.inputs
  if x.srcOut s.cfg then s.fail (.bmBounds 0)
  else (s.setResults { s.res with crcOut := crc32Of (x.srcBytes 0 x.srcLen) }).ok

/-- The PNG signature (43_png_chunk.md R350). -/
def pngSignature : List Byte := [137, 80, 78, 71, 13, 10, 26, 10]

/-- A legal chunk type byte, `A`..`Z` or `a`..`z` (43_png_chunk.md R352). -/
def isLetter (b : Byte) : Bool :=
  (decide (0x41 ≤ b.toNat) && decide (b.toNat ≤ 0x5A)) || (decide (0x61 ≤ b.toNat) && decide (b.toNat ≤ 0x7A))

/-- The chunk types PNG_PARSE knows, byte for byte (43_png_chunk.md R362). -/
def typeIhdr : List Byte := [0x49, 0x48, 0x44, 0x52]
def typeIdat : List Byte := [0x49, 0x44, 0x41, 0x54]
def typeIend : List Byte := [0x49, 0x45, 0x4E, 0x44]

/-- The fields of IHDR that must have one value, as (stream offset, value), in the order of 43_png_chunk.md R354. -/
def ihdrRules : List (Nat × Byte) := [(24, 8), (25, 6), (26, 0), (27, 0), (28, 0)]

/-- The stream offset of the first IHDR field that R354 rejects. -/
def Inputs.ihdrReject (x : Inputs) : Option Nat :=
  (ihdrRules.find? fun rule => x.src rule.1 != rule.2).map Prod.fst

/-- The IHDR registers of the first chunk (10_state.md R50, 43_png_chunk.md R353, R363). -/
def Inputs.ihdr (x : Inputs) : Ihdr where
  w := BitVec.ofNat 32 (x.be32 16)
  h := BitVec.ofNat 32 (x.be32 20)
  b := BitVec.ofNat 32 (x.le32 24)
  i := x.src 28

/-- The checks (1) to (4) of one chunk at `pos` (43_png_chunk.md R361), in their order. -/
def Inputs.chunkError (x : Inputs) (pos : Nat) : Option CmdError :=
  let len := x.be32 pos
  if x.srcLen < pos + 8 then some (.pngTrunc (pos + 8))
  else if !(x.srcBytes (pos + 4) 4).all isLetter then some (.pngType (pos + 4))
  else if x.srcLen < pos + 12 + len then some (.pngTrunc (pos + 12 + len))
  else if BitVec.ofNat 32 (x.be32 (pos + 8 + len)) ≠ crc32Of (x.srcBytes (pos + 4) (4 + len)) then some (.pngCrc pos)
  else none

/-- The chunk loop of 43_png_chunk.md R360 from `pos` on: the IHDR fields once the first chunk is read, and the IDAT
bytes gathered so far. Each chunk moves `pos` on by at least 12 (70_reset_and_hazards.md R571), so `fuel` equal to the
window's length is never used up before the window is; with no fuel left the next chunk is missing. -/
def Inputs.pngLoop (x : Inputs) : (fuel pos : Nat) → (hdr : Option Ihdr) → (idat : List Byte) →
    Except CmdError (Ihdr × List Byte)
  | 0, pos, _, _ => .error (.pngTrunc (pos + 8))
  | fuel + 1, pos, hdr, idat =>
    let len := x.be32 pos
    let ty := x.srcBytes (pos + 4) 4
    let next := pos + 12 + len
    match x.chunkError pos with
    | some e => .error e
    | none =>
      match hdr with
      | none =>
        if ty ≠ typeIhdr ∨ len ≠ 13 then .error .pngNoIhdr
        else match x.ihdrReject with
          | some offset => .error (.pngIhdrParam offset)
          | none => x.pngLoop fuel next (some x.ihdr) idat
      | some header =>
        if ty = typeIdat then x.pngLoop fuel next hdr (idat ++ x.srcBytes (pos + 8) len)
        else if ty = typeIend then .ok (header, idat)
        else x.pngLoop fuel next hdr idat

/-- The whole stream of 43_png_chunk.md R360: the signature, then the chunks. -/
def Inputs.pngStream (x : Inputs) : Except CmdError (Ihdr × List Byte) :=
  if x.srcLen < 8 then .error (.pngTrunc 8)
  else if x.srcBytes 0 8 ≠ pngSignature then .error .pngSig
  else x.pngLoop x.srcLen 8 none []

/-- PNG_PARSE (43_png_chunk.md R360, R363). -/
def execPngParse (s : State) : Out :=
  let x := s.inputs
  if x.srcOut s.cfg then s.fail (.bmBounds 0)
  else if x.dstOut s.cfg then s.fail (.bmBounds 1)
  else if x.overlap then s.fail .overlap
  else match x.pngStream with
    | .error e => s.fail e
    | .ok (header, idat) =>
      if idat.length > x.dstCap then s.fail (.dstCap idat.length)
      else
        let t := s.emit x.dstAddr idat.length idat
        (t.setResults { t.res with ihdr := header }).ok

end Sys2Proof.Machine
end

