-- ==== Sys2Proof/Machine/Scanline.lean ====
section
/-! DEFINITION. The scanline filter and defilter (44_scanline.md). -/

namespace Sys2Proof.Machine

/-- `Paeth(a, b, c)` (44_scanline.md R403), exact. -/
def paeth (a b c : Nat) : Nat :=
  let p : Int := (a : Int) + b - c
  let pa := (p - a).natAbs
  let pb := (p - b).natAbs
  let pc := (p - c).natAbs
  if pa ≤ pb ∧ pa ≤ pc then a else if pb ≤ pc then b else c

/-- `Pred(t, a, b, c)` (44_scanline.md R402); the commands use it for t ≤ 4 only. -/
def predictor (t a b c : Nat) : Nat :=
  match t with
  | 0 => 0
  | 1 => a
  | 2 => b
  | 3 => (a + b) / 2
  | _ => paeth a b c

/-- The prediction as a byte, from the neighbours' bytes. -/
def predict (t : Nat) (a b c : Byte) : Byte := BitVec.ofNat 8 (predictor t a.toNat b.toNat c.toNat)

/-- The raw byte `x(i, j)`: channel j mod 3 of PB[i][j div 3] (44_scanline.md R400). -/
def Inputs.raw (x : Inputs) (i j : Nat) : Byte := (x.px i (j / 3)).ch (j % 3)

/-- The neighbours a (left), b (above) and c (above-left) of x(i, j), 0 where missing (44_scanline.md R401). -/
def Inputs.left (x : Inputs) (i j : Nat) : Byte := if 3 ≤ j then x.raw i (j - 3) else 0
def Inputs.above (x : Inputs) (i j : Nat) : Byte := if 1 ≤ i then x.raw (i - 1) j else 0
def Inputs.aboveLeft (x : Inputs) (i j : Nat) : Byte := if 1 ≤ i ∧ 3 ≤ j then x.raw (i - 1) (j - 3) else 0

/-- `f(i, j) = (x(i, j) - Pred(t, a, b, c)) mod 256` (44_scanline.md R404). -/
def Inputs.filtered (x : Inputs) (t i j : Nat) : Byte :=
  x.raw i j - predict t (x.left i j) (x.above i j) (x.aboveLeft i j)

/-- Scanline i under filter type t: the type byte, then the filtered bytes (44_scanline.md R400). -/
def Inputs.scanline (x : Inputs) (t i : Nat) : List Byte :=
  BitVec.ofNat 8 t :: (List.range (3 * x.w)).map fun j => x.filtered t i j

/-- SL_FILTER.t (44_scanline.md R410). -/
def execSlFilter (t : Nat) (s : State) : Out :=
  let x := s.inputs
  let n := x.h * (1 + 3 * x.w)
  if x.dstOut s.cfg then s.fail (.bmBounds 1)
  else if t > 4 then s.fail (.filterType t)
  else if n > x.dstCap then s.fail (.dstCap n)
  else (s.emit x.dstAddr n ((List.range x.h).flatMap fun i => x.scanline t i)).ok

/-- The bytes of one scanline reconstructed "in increasing j" (44_scanline.md R411): `done` holds the bytes already
reconstructed, the latest first, and `prev` the row above (empty above row 0). -/
def defilterRow (t : Nat) (prev : List Byte) : (filtered done : List Byte) → List Byte
  | [], done => done.reverse
  | f :: rest, done =>
    let j := done.length
    let a := done.getD 2 0
    let b := prev.getD j 0
    let c := if 3 ≤ j then prev.getD (j - 3) 0 else 0
    defilterRow t prev rest ((f + predict t a b c) :: done)

/-- Reconstruct `n` scanlines of an image of width w from scanline i on, "in increasing i" (44_scanline.md R411). -/
def Inputs.defilterRows (x : Inputs) (w : Nat) : (n i : Nat) → (prev : List Byte) → List Byte
  | 0, _, _ => []
  | n + 1, i, prev =>
    let start := i * (1 + 3 * w)
    let row := defilterRow (x.src start).toNat prev (x.srcBytes (start + 1) (3 * w)) []
    row ++ x.defilterRows w n (i + 1) row

/-- The index of the first scanline whose type byte exceeds 4 (44_scanline.md R411). -/
def Inputs.badScanline (x : Inputs) (h w : Nat) : Option Nat :=
  (List.range h).find? fun i => decide ((x.src (i * (1 + 3 * w))).toNat > 4)

/-- The pixels of a flat byte list in R, G, B order (20_memory.md R108). -/
def pixelsOf : List Byte → List Pixel
  | r :: g :: b :: rest => ⟨r, g, b⟩ :: pixelsOf rest
  | _ => []

/-- SL_DEFILTER (44_scanline.md R411). -/
def execSlDefilter (s : State) : Out :=
  let x := s.inputs
  let need := x.dimH * (1 + 3 * x.dimW)
  if x.srcOut s.cfg then s.fail (.bmBounds 0)
  else if overCapacity s.cfg x.dimH x.dimW then s.fail .capacity
  else if x.srcLen < need then s.fail (.slTrunc need)
  else match x.badScanline x.dimH x.dimW with
    | some i => s.fail (.filterType i)
    | none => (s.buildImage x.dimH x.dimW 54 (pixelsOf (x.defilterRows x.dimW x.dimH 0 []))).ok

end Sys2Proof.Machine
end

