-- ==== Sys2Proof/Machine/Dispatch.lean ====
section
/-! DEFINITION. The meaning of each command, one arm per constructor of Instr. -/

namespace Sys2Proof.Machine

def exec (i : Instr) (s : State) : Host.Outcome State Fault Refusal :=
  match i with
  | .nop => Sys2Proof.Machine.execNop s
  | .pbClear => Sys2Proof.Machine.execPbClear s
  | .pbAlloc => Sys2Proof.Machine.execPbAlloc s
  | .pbLoadRgb => Sys2Proof.Machine.execPbLoadRgb s
  | .pbStoreRgb => Sys2Proof.Machine.execPbStoreRgb s
  | .pbBlackout => Sys2Proof.Machine.execPbBlackout s
  | .pbGrey => Sys2Proof.Machine.execPbGrey s
  | .pbGreyLuma => Sys2Proof.Machine.execPbGreyLuma s
  | .pbColorMask => Sys2Proof.Machine.execPbColorMask s
  | .pbSepia => Sys2Proof.Machine.execPbSepia s
  | .pbReflectH => Sys2Proof.Machine.execPbReflectH s
  | .pbReflectV => Sys2Proof.Machine.execPbReflectV s
  | .bmpDecode => Sys2Proof.Machine.execBmpDecode s
  | .bmpEncode => Sys2Proof.Machine.execBmpEncode s
  | .conv3 norm => Sys2Proof.Machine.execConv3 norm s
  | .edges => Sys2Proof.Machine.execEdges s
  | .gauss => Sys2Proof.Machine.execGauss s
  | .pngParse => Sys2Proof.Machine.execPngParse s
  | .crc32 => Sys2Proof.Machine.execCrc32 s
  | .slFilter t => Sys2Proof.Machine.execSlFilter t s
  | .slDefilter => Sys2Proof.Machine.execSlDefilter s
  | .a7Split => Sys2Proof.Machine.execA7Split s
  | .a7Merge n => Sys2Proof.Machine.execA7Merge n s

end Sys2Proof.Machine
end

