-- ==== Sys2Proof/Machine/Engine.lean ====
section
/-! DEFINITION. The completion step of the running command (10_state.md R35, 30_encoding.md R142). -/

namespace Sys2Proof.Machine

/-- The error of a word that encodes no command (30_encoding.md R142): ILLEGAL(OPCODE, w) or ILLEGAL(RESERVED_BITS, w). -/
def illegalError (w : Word) : DecodeError → CmdError
  | .opcode => .opcode w.toNat
  | .reservedBits => .reservedBits w.toNat

/-- Decode the accepted word and run its command to completion; "An illegal word completes like any failed command"
(30_encoding.md R142). -/
def runCommand (w : Word) (s : State) : Out :=
  match decode w with
  | .ok i => exec i s
  | .error e => s.fail (illegalError w e)

/-- A step of the machine: the completion step of a Busy engine that has no turn of the host left, else a turn of the
host, which costs a Busy engine one (70_reset_and_hazards.md R570, assumption 4). -/
def advance (s : State) : Out :=
  match s.engine with
  | none => .next s.hostTurn
  | some e =>
    match e.delay with
    | 0 => runCommand e.word s
    | d + 1 => .next (State.hostTurn { s with engine := some { e with delay := d } })

end Sys2Proof.Machine
end

