-- ==== Sys2Proof/Machine/Step.lean ====
section
/-! DEFINITION. One step of IMGCORE, and how the host places one command for the next step. -/

namespace Sys2Proof.Machine

/-- One step. -/
def step (s : State) : Host.Outcome State Fault Refusal := advance s

/-- The state in which the very next step runs the command word `w`: an accepted CMD write (10_state.md R35, R38) whose
completion step is due at once (assumption 5). -/
def State.withFetchWord (s : State) (nbits w : Nat) : State := s.start (BitVec.ofNat 32 (w % 2 ^ nbits)) 0

end Sys2Proof.Machine
end

