-- ==== Sys2Proof/Machine/HostProgram.lean ====
section
/-! DEFINITION. The host notation of 30_encoding.md R147 and R148: each statement as the bus accesses it expands to. -/

namespace Sys2Proof.Machine

/-- A full-strobe word write. -/
def fullWrite (addr v : Word) : HostEvent := .write addr v 0xF

/-- `wr NAME, v` (R147). -/
def hostWr (r : RegName) (v : Word) : List HostEvent := [fullWrite r.addr v]

/-- `rd NAME` (R147). -/
def hostRd (r : RegName) : List HostEvent := [.read r.addr]

/-- `wrw BM+o, v` (R147). -/
def hostWrw (o : Nat) (v : Word) : List HostEvent := [fullWrite (BitVec.ofNat 32 (0x01000000 + o)) v]

/-- `rdw BM+o` (R147). -/
def hostRdw (o : Nat) : List HostEvent := [.read (BitVec.ofNat 32 (0x01000000 + o))]

/-- `wrgw i, x` (R148): the low word, then the high word. -/
def hostWrgw (i : Nat) (x : BitVec 64) : List HostEvent :=
  [fullWrite (BitVec.ofNat 32 (0x1000 + 8 * i)) (x.extractLsb' 0 32),
    fullWrite (BitVec.ofNat 32 (0x1000 + 8 * i + 4)) (x.extractLsb' 32 32)]

/-- `cmd` with a command word: `wr CMD, word` then `wait` (R148). -/
def hostCmdWord (w : Word) : List HostEvent := [fullWrite RegName.cmd.addr w, .wait]

/-- `cmd M` (R148). -/
def hostCmd (i : Instr) : List HostEvent := hostCmdWord (encode i)

/-- `ack`: `wr STATUS, 0x0000_0002` (R148). -/
def hostAck : List HostEvent := hostWr .status 2

/-- The write of `bytes BM+o: b0 ..` to the word with index `word`: "byte b_j on lane (o+j) mod 4 and the strobe bit of
each lane set only where a byte is given" (R148). -/
def bytesWord (o : Nat) (bs : List Byte) (word : Nat) : HostEvent :=
  let given (k : Nat) : Bool := decide (o ≤ 4 * word + k ∧ 4 * word + k < o + bs.length)
  let byte (k : Nat) : Byte := if given k then bs.getD (4 * word + k - o) 0 else 0
  .write (BitVec.ofNat 32 (0x01000000 + 4 * word)) (laneWord byte)
    (BitVec.ofNat 4 ((given 0).toNat + 2 * (given 1).toNat + 4 * (given 2).toNat + 8 * (given 3).toNat))

/-- `bytes BM+o: b0 .. bk` (R148): "one word write per word-aligned word that the byte range touches". -/
def hostBytes (o : Nat) (bs : List Byte) : List HostEvent :=
  (List.range (if bs = [] then 0 else (o + bs.length + 3) / 4 - o / 4)).map fun q => bytesWord o bs (o / 4 + q)

/-- The host goes on to do `evs` after what it already has to do. -/
def State.issue (evs : List HostEvent) (s : State) : State := { s with host := s.host ++ evs }

end Sys2Proof.Machine
end

