-- ==== Sys2Proof/Safety.lean ====
section
/-! DEFINITION. What counts as a safe state of IMGCORE: the promises that the spec makes of every state, in the terms
that claims use. -/

namespace Sys2Proof.Machine

/-- The memories are canonical and hold no cell that the implementation lacks (10_state.md R60, R65, R66). -/
structure State.MemoriesOk (s : State) : Prop where
  bm_wf    : s.bm.wf
  gw_wf    : s.gw.wf
  pb_wf    : s.pb.cells.wf
  bm_below : s.bm.below s.cfg.bmBytes
  gw_below : s.gw.below (8 * s.cfg.gwEntries)
  pb_below : s.pb.cells.below s.cfg.pbCells

/-- The dimension invariant: "At every step, H <= 2^31 - 1, W <= 2^31 - 1 and H * W <= PB_CELLS" (10_state.md R62). -/
structure State.DimsOk (s : State) : Prop where
  h_le     : s.pb.h.toNat ≤ 2 ^ 31 - 1
  w_le     : s.pb.w.toNat ≤ 2 ^ 31 - 1
  count_le : s.pb.h.toNat * s.pb.w.toNat ≤ s.cfg.pbCells

/-- "No other (class, detail) pair is produced. Detail code 0 goes with class 0 only" (60_exceptions.md R501); with
class 0 there is no error to inform about (10_state.md R41). -/
def Status.codesOk (st : Status) : Prop :=
  (st.errClass = 0 ∧ st.errDetail = 0 ∧ st.errInfo = 0) ∨ (st.errClass, st.errDetail) ∈ errorCodes

/-- While a command runs, "the sampled inputs equal the registers' values throughout the command"
(70_reset_and_hazards.md R561), CMD holds its word (10_state.md R38), and DONE and the error fields are 0 (R35). -/
def State.engineOk (s : State) : Prop :=
  match s.engine with
  | none => True
  | some e => e.inputs = s.sample ∧ e.word = s.cmd ∧ s.status.done = false ∧ s.status.errClass = 0

/-- What holds of every state that the machine can reach. -/
structure State.Inv (s : State) : Prop where
  memories : s.MemoriesOk
  dims     : s.DimsOk
  codes    : s.status.codesOk
  engine   : s.engineOk
  offset   : 54 ≤ s.pb.offset.toNat
  outLen   : s.res.outLen.toNat ≤ s.cfg.bmBytes

/-- The end of a run: the host program is used up and BUSY = 0 (70_reset_and_hazards.md R572). -/
def State.runEnded (s : State) : Prop := s.host = [] ∧ s.busy = false

/-! ### Frames: what a completed command leaves as it was -/

/-- What no command changes, done or failed: the configuration, IE, CMD ("CMD keeps the accepted word", 60_exceptions.md
R503), the pixel-port registers, GW ("Only the host writes GW", 10_state.md R66), the sticky flags ("no command changes
HAZ, BUSERR or PIXERR", 40_pixelbuffer.md R200), and the host's side. Completion sets BUSY to 0 and DONE to 1 (10_state.md
R35). -/
structure CommandFrame (s t : State) : Prop where
  cfg     : t.cfg = s.cfg
  ie      : t.ie = s.ie
  cmd     : t.cmd = s.cmd
  pixRow  : t.pixRow = s.pixRow
  pixCol  : t.pixCol = s.pixCol
  gw      : t.gw = s.gw
  host    : t.host = s.host
  busData : t.busData = s.busData
  draws   : t.draws = s.draws
  haz     : t.status.haz = s.status.haz
  buserr  : t.status.buserr = s.status.buserr
  pixerr  : t.status.pixerr = s.status.pixerr
  idle    : t.busy = false
  done    : t.status.done = true

/-- A command that ends in `done` besides leaves the error fields, which its acceptance set to 0 (10_state.md R35). -/
structure DoneFrame (s t : State) : Prop extends CommandFrame s t where
  errClass  : t.status.errClass = s.status.errClass
  errDetail : t.status.errDetail = s.status.errDetail
  errInfo   : t.status.errInfo = s.status.errInfo

/-- A command that writes at most pixels, dimensions and PB_OFFSET of PB: the operand and result registers and every byte
of BM stay. -/
structure ImageFrame (s t : State) : Prop extends DoneFrame s t where
  ops    : t.ops = s.ops
  res    : t.res = s.res
  bm     : t.bm = s.bm
  bmRead : ∀ a, bmByte t.bm a = bmByte s.bm a

/-- A command that writes at most pixels of the image: its dimensions and PB_OFFSET stay, and so does every cell outside
the image ("Cells at index H*W and above are outside the image", 10_state.md R61). -/
structure PixelFrame (s t : State) : Prop extends ImageFrame s t where
  pbH     : t.pb.h = s.pb.h
  pbW     : t.pb.w = s.pb.w
  offset  : t.pb.offset = s.pb.offset
  outside : ∀ i, s.inputs.h * s.inputs.w ≤ i → t.pb.cell i = s.pb.cell i

/-- A command that writes `n` bytes to the destination window: OUT_LEN is n, every byte of BM outside
`DST_ADDR .. DST_ADDR + n - 1` reads as before (20_memory.md R112), and PB and the other result registers stay. -/
structure OutputFrame (n : Nat) (s t : State) : Prop extends DoneFrame s t where
  pb      : t.pb = s.pb
  outLen  : t.res.outLen = BitVec.ofNat 32 n
  topdown : t.res.topdown = s.res.topdown
  crcOut  : t.res.crcOut = s.res.crcOut
  outside : ∀ a, a < s.inputs.dstAddr ∨ s.inputs.dstAddr + n ≤ a → bmByte t.bm a = bmByte s.bm a

end Sys2Proof.Machine
end

