-- ==== Sys2Proof/Certificates/Slice0/Obligations.lean ====
section
/-! DEFINITION. The statements for the provers. Each docstring names the rule of spec/ it formalises. In a statement about a
command, `s.inputs` are the inputs the command sampled, and `cell (r * W + c)` is the pixel PB[r][c] (10_state.md R61). -/

open Sys2Proof Sys2Proof.Machine

/-! ### Encoding -/

/-- Every operand of every command survives encoding (30_encoding.md R140, R141, R148). -/
def Obligations.DecodeOfEncodeIsIdentity : Prop :=
  ∀ i : Instr, i.wf → decode (encode i) = .ok i

/-- Every word that encodes a command is the one encoding of that command (30_encoding.md R140, R144). -/
def Obligations.LegalWordsEncodeBack : Prop :=
  ∀ (w : Word) (i : Instr), decode w = .ok i → i.wf ∧ encode i = w

/-- MATCH and MASK of the rows of 30_encoding.md R144, with the OP values of R143. -/
def matchMask : Instr → Word × Word
  | .nop => (0x00, 0xFFFFFFFF)
  | .pbClear => (0x10, 0xFFFFFFFF)
  | .pbAlloc => (0x11, 0xFFFFFFFF)
  | .pbLoadRgb => (0x12, 0xFFFFFFFF)
  | .pbStoreRgb => (0x13, 0xFFFFFFFF)
  | .pbBlackout => (0x14, 0xFFFFFFFF)
  | .pbGrey => (0x15, 0xFFFFFFFF)
  | .pbGreyLuma => (0x16, 0xFFFFFFFF)
  | .pbColorMask => (0x17, 0xFFFFFFFF)
  | .pbSepia => (0x18, 0xFFFFFFFF)
  | .pbReflectH => (0x19, 0xFFFFFFFF)
  | .pbReflectV => (0x1A, 0xFFFFFFFF)
  | .bmpDecode => (0x20, 0xFFFFFFFF)
  | .bmpEncode => (0x21, 0xFFFFFFFF)
  | .conv3 _ => (0x30, 0xFFFFFEFF)
  | .edges => (0x31, 0xFFFFFFFF)
  | .gauss => (0x32, 0xFFFFFFFF)
  | .pngParse => (0x40, 0xFFFFFFFF)
  | .crc32 => (0x41, 0xFFFFFFFF)
  | .slFilter _ => (0x50, 0xFFFF00FF)
  | .slDefilter => (0x51, 0xFFFFFFFF)
  | .a7Split => (0x60, 0xFFFFFFFF)
  | .a7Merge _ => (0x61, 0xFFFF00FF)

/-- 30_encoding.md R144: a word selects a command exactly when it matches its row, and an out-of-range OPT value of
SL_FILTER or A7_MERGE is a legal encoding that raises a RANGE error when executed. -/
def Obligations.MatchAndMaskSelectTheCommand : Prop :=
  (∀ (w : Word) (i : Instr), w &&& (matchMask i).2 = (matchMask i).1 →
    ∃ j, decode w = .ok j ∧ matchMask j = matchMask i) ∧
  (∀ (w : Word) (i : Instr), decode w = .ok i → w &&& (matchMask i).2 = (matchMask i).1) ∧
  (∀ (t : Nat) (s : State), 4 < t → t < 256 →
    decode (BitVec.ofNat 32 (0x50 + 256 * t)) = .ok (.slFilter t) ∧
    ∃ e : CmdError, e.errClass = 3 ∧ exec (.slFilter t) s = .next (s.raise e)) ∧
  (∀ (n : Nat) (s : State), n = 0 ∨ 7 < n → n < 256 →
    decode (BitVec.ofNat 32 (0x61 + 256 * n)) = .ok (.a7Merge n) ∧
    ∃ e : CmdError, e.errClass = 3 ∧ exec (.a7Merge n) s = .next (s.raise e))

/-- The OP values of 30_encoding.md R143. -/
def assignedOps : List Nat :=
  [0x00, 0x10, 0x11, 0x12, 0x13, 0x14, 0x15, 0x16, 0x17, 0x18, 0x19, 0x1A, 0x20, 0x21, 0x30, 0x31, 0x32, 0x40, 0x41,
    0x50, 0x51, 0x60, 0x61]

/-- LEGAL_OPT of 30_encoding.md R141, R142. -/
def legalOptOf (op : Nat) : Byte := if op = 0x30 then 0x01 else if op = 0x50 ∨ op = 0x61 then 0xFF else 0x00

/-- 30_encoding.md R142: the decode order, and how an illegal word completes. -/
def Obligations.DecodeOrderAndIllegalWords : Prop :=
  ∀ (w : Word) (s : State),
    let op := w.toNat % 256
    let opt : Byte := BitVec.ofNat 8 (w.toNat / 256)
    let rsv := w.toNat / 65536
    (op ∉ assignedOps →
      runCommand w s = .next (s.raise (.opcode w.toNat)) ∧
      (s.raise (.opcode w.toNat)).status.errClass = 4 ∧ (s.raise (.opcode w.toNat)).status.errDetail = 1 ∧
      (s.raise (.opcode w.toNat)).status.errInfo = w) ∧
    (op ∈ assignedOps → (rsv ≠ 0 ∨ opt &&& ~~~ legalOptOf op ≠ 0) →
      runCommand w s = .next (s.raise (.reservedBits w.toNat)) ∧
      (s.raise (.reservedBits w.toNat)).status.errClass = 4 ∧ (s.raise (.reservedBits w.toNat)).status.errDetail = 2 ∧
      (s.raise (.reservedBits w.toNat)).status.errInfo = w) ∧
    (op ∈ assignedOps → rsv = 0 → opt &&& ~~~ legalOptOf op = 0 →
      ∃ i : Instr, i.op.toNat = op ∧ i.opt = opt ∧ decode w = .ok i ∧ runCommand w s = exec i s) ∧
    (∀ e : CmdError, (s.raise e).pb = s.pb ∧ (s.raise e).bm = s.bm ∧ (s.raise e).res = s.res)

/-- A few words of 30_encoding.md R143 and R148, written out, of every unit of 00_scope.md R2 that has a command: pixel
buffer, BMP, convolution, Gaussian blur, PNG, scanline, Adam7 (a sanity statement). -/
def Obligations.SampleWordsDecode : Prop :=
  decode 0x00000000 = .ok .nop ∧ decode 0x00000017 = .ok .pbColorMask ∧ decode 0x00000020 = .ok .bmpDecode ∧
  decode 0x00000130 = .ok (.conv3 true) ∧ decode 0x00000030 = .ok (.conv3 false) ∧ decode 0x00000032 = .ok .gauss ∧
  decode 0x00000040 = .ok .pngParse ∧ decode 0x00000041 = .ok .crc32 ∧
  decode 0x00000450 = .ok (.slFilter 4) ∧ decode 0x00000761 = .ok (.a7Merge 7) ∧
  decode 0x00010001 = .error .opcode ∧ decode 0x00000230 = .error .reservedBits

/-! ### Steps, reset, invariant -/

/-- A Busy engine whose completion is due runs the command its accepted word decodes to, or raises ILLEGAL
(30_encoding.md R142, 20_memory.md R121 (b)). The latency in host turns is the model's (assumption 4). -/
def Obligations.StepRunsTheAcceptedCommand : Prop :=
  (∀ (s : State) (e : Running) (i : Instr), s.engine = some e → e.delay = 0 → decode e.word = .ok i →
    step s = exec i s) ∧
  (∀ (s : State) (e : Running) (d : DecodeError), s.engine = some e → e.delay = 0 → decode e.word = .error d →
    step s = .next (s.raise (illegalError e.word d))) ∧
  (∀ (s : State) (w : Nat) (i : Instr), w < 2 ^ 32 → decode (BitVec.ofNat 32 w) = .ok i →
    step (s.withFetchWord 32 w) = exec i (s.withFetchWord 32 w))

/-- Every other step is a turn of the host, which serves the first pending access alone (20_memory.md R120) and leaves an
idle block with nothing to do as it is (60_exceptions.md R525). The latency is the model's (assumption 4). -/
def Obligations.OtherStepsServeTheHost : Prop :=
  (∀ (s : State) (ev : HostEvent) (rest : List HostEvent), s.engine = none → s.host = ev :: rest →
    step s = .next (State.serve ev { s with host := rest })) ∧
  (∀ s : State, s.engine = none → s.host = [] → step s = .next s) ∧
  (∀ (s : State) (e : Running) (d : Nat) (ev : HostEvent) (rest : List HostEvent),
    s.engine = some e → e.delay = d + 1 → s.host = ev :: rest →
    step s = .next (State.serve ev { s with host := rest, engine := some { e with delay := d } })) ∧
  (∀ (s : State) (e : Running) (d : Nat), s.engine = some e → e.delay = d + 1 → s.host = [] →
    step s = .next { s with engine := some { e with delay := d } })

/-- The safe-state invariant holds right after reset, for every configuration (10_state.md R62, 60_exceptions.md R501). -/
def Obligations.ResetStateIsSafe : Prop :=
  State.reset.Inv ∧ ∀ cfg : Config, (State.resetWith cfg).Inv

/-- Every step keeps the invariant: canonical memories that hold no cell past their size (10_state.md R60, R65, R66), the
dimension invariant (R62), the error codes of 60_exceptions.md R501, the sampled inputs equal to the registers while BUSY
(70_reset_and_hazards.md R561), PB_OFFSET at least 54 (10_state.md R43), and OUT_LEN inside BM (10_state.md R40, 20_memory.md
R110, R112). -/
def Obligations.StepKeepsSafeStates : Prop :=
  ∀ s t : State, s.Inv → step s = .next t → t.Inv

/-- "Every accepted command completes" (70_reset_and_hazards.md R571): a Busy engine whose delay is n is Idle after n + 1
steps, whatever the host does meanwhile short of a hardware reset. The delay is the model's (assumption 4). -/
def Obligations.EveryAcceptedCommandCompletes : Prop :=
  ∀ (s : State) (e : Running), s.engine = some e → HostEvent.hardReset ∉ s.host →
    ∃ t, core.run (e.delay + 1) s = .next t ∧ t.busy = false

/-- The reset value of each register (10_state.md R31): what it reads after a reset. -/
def resetValue : RegName → Word
  | .id => 0x494D4701
  | .pbOffset => 54
  | .cmFr | .cmFg | .cmFb => 0x0100
  | _ => 0

/-- 70_reset_and_hazards.md R551: every register of the table after a hardware and after a soft reset, the memories
undefined after the one and unchanged after the other, and the engine Idle. -/
def Obligations.ResetValues : Prop :=
  ∀ s : State,
    (∀ r, s.hardReset.readReg r = resetValue r) ∧ (∀ r, s.softReset.readReg r = resetValue r) ∧
    (∀ a, s.hardReset.bm.get? a = none ∧ s.hardReset.gw.get? a = none ∧ s.hardReset.pb.cells.get? a = none) ∧
    s.softReset.bm = s.bm ∧ s.softReset.gw = s.gw ∧ s.softReset.pb.cells = s.pb.cells ∧
    s.hardReset.busy = false ∧ s.softReset.busy = false ∧ s.hardReset.irq = false ∧
    (∀ r, State.reset.readReg r = resetValue r)

/-! ### The host bus -/

/-- A bus address that R101 maps (20_memory.md R101 to R103, 10_state.md R31, R52). -/
def mapped (cfg : Config) (a : Nat) : Prop :=
  (∃ r : RegName, r.offset = a) ∨ (0x1000 ≤ a ∧ a < 0x1000 + 8 * cfg.gwEntries) ∨
    (0x01000000 ≤ a ∧ a < 0x01000000 + cfg.bmBytes)

/-- The three conditions under which an access does nothing, reads 0 and sets BUSERR, and what the strobes of a GW or BM
write enable (20_memory.md §2, R104). Two clauses are the model's reading: a register write with strobe 0b0000 is BUSERR
(assumption 9), and a BM word that straddles the end of BM is mapped and stores the bytes BM has (assumption 8). -/
def Obligations.BusErrorsAndStrobes : Prop :=
  ∀ (s : State) (addr data : Word) (strobe : BitVec 4), s.cfg.legal →
    ((addr.toNat % 4 ≠ 0 ∨ ¬ mapped s.cfg addr.toNat) →
      s.busRead addr = { s.setBuserr with busData := 0 } ∧ s.busWrite addr data strobe = s.setBuserr) ∧
    (∀ r : RegName, addr.toNat = r.offset → strobe ≠ 0xF → s.busWrite addr data strobe = s.setBuserr) ∧
    (s.busy = false → addr.toNat % 4 = 0 → ∀ o, addr.toNat = 0x01000000 + o → o < s.cfg.bmBytes →
      (∀ k, k < 4 → o + k < s.cfg.bmBytes → strobe.getLsbD k = true →
        bmByte (s.busWrite addr data strobe).bm (o + k) = data.extractLsb' (8 * k) 8) ∧
      (∀ a, (∀ k, k < 4 → strobe.getLsbD k = true → a ≠ o + k) →
        bmByte (s.busWrite addr data strobe).bm a = bmByte s.bm a) ∧
      s.busWrite addr data strobe = { s with bm := (s.busWrite addr data strobe).bm }) ∧
    (s.busy = false → addr.toNat % 4 = 0 → ∀ o, addr.toNat = 0x1000 + o → o < 8 * s.cfg.gwEntries →
      (∀ k, k < 4 → strobe.getLsbD k = true →
        gwByte (s.busWrite addr data strobe).gw (o + k) = data.extractLsb' (8 * k) 8) ∧
      (∀ a, (∀ k, k < 4 → strobe.getLsbD k = true → a ≠ o + k) →
        gwByte (s.busWrite addr data strobe).gw a = gwByte s.gw a) ∧
      s.busWrite addr data strobe = { s with gw := (s.busWrite addr data strobe).gw })

/-- A served BM word read is `{BM[4j+3], BM[4j+2], BM[4j+1], BM[4j]}` and changes nothing else, and in every word access,
read or write, of BM or GW, byte lane k is the byte at A + k (20_memory.md §2, R105). For a word that straddles the end of
BM the missing lanes read as free draws and no BUSERR is set, which is the model's choice (assumption 8). -/
def Obligations.LittleEndianBusWords : Prop :=
  ∀ (s : State) (addr v : Word), s.cfg.legal → s.busy = false → addr.toNat % 4 = 0 →
    (∀ o, addr.toNat = 0x01000000 + o → o < s.cfg.bmBytes →
      s.busRead addr = { s with
        busData := bmByte s.bm (o + 3) ++ bmByte s.bm (o + 2) ++ bmByte s.bm (o + 1) ++ bmByte s.bm o } ∧
      ∀ k, k < 4 → o + k < s.cfg.bmBytes → bmByte (s.busWrite addr v 0xF).bm (o + k) = v.extractLsb' (8 * k) 8) ∧
    (∀ o, addr.toNat = 0x1000 + o → o < 8 * s.cfg.gwEntries →
      s.busRead addr = { s with
        busData := gwByte s.gw (o + 3) ++ gwByte s.gw (o + 2) ++ gwByte s.gw (o + 1) ++ gwByte s.gw o } ∧
      ∀ k, k < 4 → gwByte (s.busWrite addr v 0xF).gw (o + k) = v.extractLsb' (8 * k) 8)

/-- 20_memory.md R103 (with `wrgw` of 30_encoding.md R148): entry i is the low word at `0x1000 + 8*i` and the high word
after it; writing both makes it the f64 x, and no other entry changes; above the last entry the window is unmapped. -/
def Obligations.GwEntryIsTwoWords : Prop :=
  (∀ (cfg : Config) (addr : Word), 0x1000 + 8 * cfg.gwEntries ≤ addr.toNat → addr.toNat < 0x01000000 →
    busAccess cfg addr = none) ∧
  ∀ (s : State) (i : Nat) (x : BitVec 64), s.cfg.legal → s.busy = false → i < s.cfg.gwEntries →
    let lo : Word := BitVec.ofNat 32 (0x1000 + 8 * i)
    let hi : Word := BitVec.ofNat 32 (0x1000 + 8 * i + 4)
    let t := (s.busWrite lo (x.extractLsb' 0 32) 0xF).busWrite hi (x.extractLsb' 32 32) 0xF
    t.inputs.gwBits i = x ∧ (∀ j, j ≠ i → t.inputs.gwBits j = s.inputs.gwBits j) ∧
    (s.busRead lo).busData = (s.inputs.gwBits i).extractLsb' 0 32 ∧
    (s.busRead hi).busData = (s.inputs.gwBits i).extractLsb' 32 32

/-- The bits of a register that hold what is written (10_state.md R31, R46, R49); none for RO registers and ports. -/
def writableBits : RegName → Option Word
  | .srcAddr | .srcLen | .dstAddr | .dstCap | .dimH | .dimW | .arg0 | .arg1 | .arg2 | .arg3 | .pixRow | .pixCol
  | .gaussR | .a7ph _ | .a7pw _ => some 0xFFFFFFFF
  | .cmFr | .cmFg | .cmFb => some 0xFFFF
  | .k _ => some 0xFF
  | .id | .ctrl | .status | .cmd | .outLen | .errInfo | .pbH | .pbW | .pbCount | .pbOffset | .pixData | .bmpFlags
  | .crcOut | .ihdrW | .ihdrH | .ihdrB | .ihdrI => none

/-- The register map of 10_state.md R31, without the three rows of registers that carry an index. -/
def registerMap : List (RegName × Nat) := [
  (.id, 0x000), (.ctrl, 0x004), (.status, 0x008), (.cmd, 0x00C), (.srcAddr, 0x010), (.srcLen, 0x014), (.dstAddr, 0x018),
  (.dstCap, 0x01C), (.outLen, 0x020), (.errInfo, 0x024), (.dimH, 0x028), (.dimW, 0x02C), (.arg0, 0x030), (.arg1, 0x034),
  (.arg2, 0x038), (.arg3, 0x03C), (.pbH, 0x040), (.pbW, 0x044), (.pbCount, 0x048), (.pbOffset, 0x04C), (.pixRow, 0x050),
  (.pixCol, 0x054), (.pixData, 0x058), (.bmpFlags, 0x05C), (.cmFr, 0x060), (.cmFg, 0x064), (.cmFb, 0x068),
  (.gaussR, 0x06C), (.crcOut, 0x070), (.ihdrW, 0x0C0), (.ihdrH, 0x0C4), (.ihdrB, 0x0C8), (.ihdrI, 0x0CC)]

/-- The read-only registers of 10_state.md R31. -/
def readOnlyRegisters : List RegName :=
  [.id, .outLen, .errInfo, .pbH, .pbW, .pbCount, .pbOffset, .bmpFlags, .crcOut, .ihdrW, .ihdrH, .ihdrB, .ihdrI]

/-- What each register without an index reads, in terms of the state (10_state.md R32, R38 to R43, R44 to R50, R52). The
fields of CTRL and STATUS are in `CtrlAndStatusFields`, the port PIX_DATA in `PixelPortReadsAndWrites`. -/
def registerReads (s : State) : List (RegName × Word) := [
  (.id, 0x494D4701), (.cmd, s.cmd), (.srcAddr, s.ops.srcAddr), (.srcLen, s.ops.srcLen), (.dstAddr, s.ops.dstAddr),
  (.dstCap, s.ops.dstCap), (.outLen, s.res.outLen), (.errInfo, s.status.errInfo), (.dimH, s.ops.dimH),
  (.dimW, s.ops.dimW), (.arg0, s.ops.arg0), (.arg1, s.ops.arg1), (.arg2, s.ops.arg2), (.arg3, s.ops.arg3),
  (.pbH, s.pb.h), (.pbW, s.pb.w), (.pbCount, BitVec.ofNat 32 (s.pb.h.toNat * s.pb.w.toNat)),
  (.pbOffset, s.pb.offset), (.pixRow, s.pixRow), (.pixCol, s.pixCol), (.bmpFlags, if s.res.topdown then 1 else 0),
  (.cmFr, s.ops.cmFr.setWidth 32), (.cmFg, s.ops.cmFg.setWidth 32), (.cmFb, s.ops.cmFb.setWidth 32),
  (.gaussR, s.ops.gaussR), (.crcOut, s.res.crcOut), (.ihdrW, s.res.ihdr.w), (.ihdrH, s.res.ihdr.h),
  (.ihdrB, s.res.ihdr.b), (.ihdrI, s.res.ihdr.i.setWidth 32)]

/-- Every register lies at its offset of the map and at no other; it reads the value the state holds for it; a host read of
it while BUSY = 0 returns that value and has no side effect; the operand registers read back what was written to their
storage; writing one changes no other register; and a write of a read-only register while BUSY = 0 is ignored and sets no
flag (10_state.md R31, R32, R38 to R52; 20_memory.md R104, R106). Only PIX_DATA, a port, may read otherwise after PIX_ROW or
PIX_COL changed. -/
def Obligations.OperandRegistersReadBack : Prop :=
  (∀ p ∈ registerMap, p.1.offset = p.2 ∧ regAt p.2 = some p.1) ∧
  (∀ i : Fin 9, (RegName.k i).offset = 0x080 + 4 * i.val ∧ regAt (0x080 + 4 * i.val) = some (.k i)) ∧
  (∀ i : Fin 7, (RegName.a7ph i).offset = 0x100 + 4 * i.val ∧ regAt (0x100 + 4 * i.val) = some (.a7ph i)) ∧
  (∀ i : Fin 7, (RegName.a7pw i).offset = 0x120 + 4 * i.val ∧ regAt (0x120 + 4 * i.val) = some (.a7pw i)) ∧
  (∀ (o : Nat) (r : RegName), regAt o = some r → r.offset = o) ∧
  (∀ s : State, (∀ p ∈ registerReads s, s.readReg p.1 = p.2) ∧
    (∀ i, s.readReg (.k i) = (s.ops.k.get i).setWidth 32) ∧
    ∀ i, s.readReg (.a7ph i) = s.ops.a7ph.get i ∧ s.readReg (.a7pw i) = s.ops.a7pw.get i) ∧
  (∀ (s : State) (r : RegName), s.busy = false → r ≠ .pixData →
    s.busRead r.addr = { s with busData := s.readReg r }) ∧
  (∀ (s : State) (v : Word), s.busy = false → ∀ r ∈ readOnlyRegisters, s.busWrite r.addr v 0xF = s) ∧
  ∀ (s : State) (r : RegName) (v bits : Word), s.busy = false → writableBits r = some bits →
    (s.busWrite r.addr v 0xF).readReg r = v &&& bits ∧
    (∀ r' : RegName, r' ≠ r → r' ≠ .pixData → (s.busWrite r.addr v 0xF).readReg r' = s.readReg r') ∧
    (s.busWrite r.addr v 0xF).bm = s.bm ∧ (s.busWrite r.addr v 0xF).gw = s.gw ∧ (s.busWrite r.addr v 0xF).pb = s.pb

/-- 10_state.md R33: the fields of CTRL; and the word that STATUS reads as, with what a write of STATUS changes (10_state.md
R34). -/
def Obligations.CtrlAndStatusFields : Prop :=
  (∀ s : State,
    let w := s.readReg .status
    w.getLsbD 0 = s.busy ∧ w.getLsbD 1 = s.status.done ∧ w.getLsbD 2 = (s.status.errClass != 0) ∧
    w.getLsbD 3 = s.status.haz ∧ w.getLsbD 4 = s.status.buserr ∧ w.getLsbD 5 = s.status.pixerr ∧
    w.extractLsb' 6 2 = 0 ∧ w.extractLsb' 8 4 = s.status.errClass ∧ w.extractLsb' 12 4 = 0 ∧
    w.extractLsb' 16 8 = s.status.errDetail ∧ w.extractLsb' 24 8 = 0) ∧
  (∀ (s : State) (v : Word), s.busWrite RegName.status.addr v 0xF = { s with status := { s.status with
    done := s.status.done && !v.getLsbD 1, haz := s.status.haz && !v.getLsbD 3,
    buserr := s.status.buserr && !v.getLsbD 4, pixerr := s.status.pixerr && !v.getLsbD 5 } }) ∧
  ∀ (s : State) (v : Word), s.busy = false →
    (v.getLsbD 1 = false → s.busWrite RegName.ctrl.addr v 0xF = { s with ie := v.getLsbD 0 }) ∧
    (v.getLsbD 1 = true → s.busWrite RegName.ctrl.addr v 0xF = s.softReset ∧ s.softReset.ie = false) ∧
    s.readReg .ctrl = (if s.ie then 1 else 0) ∧ s.irq = (s.ie && s.status.done)

/-- Only a CMD write that is accepted, or a reset, ends the error report (the cases of 10_state.md R36). -/
def endsErrorReport (s : State) (ev : HostEvent) : Prop :=
  (s.busy = false ∧ ∃ v, ev = .write RegName.cmd.addr v 0xF) ∨
  (s.busy = false ∧ ∃ v : Word, v.getLsbD 1 = true ∧ ev = .write RegName.ctrl.addr v 0xF) ∨ ev = .hardReset

/-- 10_state.md R36: ERR_CLASS and ERR_DETAIL hold until the next accepted CMD write or a reset, whatever the host does,
and in particular over a W1C write of DONE. -/
def Obligations.ErrorFieldsHoldUntilTheNextCommand : Prop :=
  (∀ (s : State) (ev : HostEvent), ¬ endsErrorReport s ev →
    (State.serve ev s).status.errClass = s.status.errClass ∧ (State.serve ev s).status.errDetail = s.status.errDetail) ∧
  (∀ (s : State) (v : Word), v.getLsbD 1 = true →
    (s.busWrite RegName.status.addr v 0xF).status.done = false ∧
    (s.busWrite RegName.status.addr v 0xF).status.errClass = s.status.errClass ∧
    (s.busWrite RegName.status.addr v 0xF).status.errDetail = s.status.errDetail)

/-- A host event that clears the W1C bit `bit` of STATUS: a full-strobe STATUS write with that bit set, or a reset. -/
def clearsSticky (s : State) (bit : Nat) (ev : HostEvent) : Prop :=
  (∃ v : Word, v.getLsbD bit = true ∧ ev = .write RegName.status.addr v 0xF) ∨
  (s.busy = false ∧ ∃ v : Word, v.getLsbD 1 = true ∧ ev = .write RegName.ctrl.addr v 0xF) ∨ ev = .hardReset

/-- 10_state.md R37: HAZ (bit 3), BUSERR (bit 4) and PIXERR (bit 5) are sticky: only a W1C write or a reset clears them,
and no command completion does. A W1C write does clear its flag, and an access that sets one sets it in its own step. -/
def Obligations.StickyFlagsFallOnlyByWriteOrReset : Prop :=
  (∀ (s : State) (ev : HostEvent),
    (¬ clearsSticky s 3 ev → s.status.haz = true → (State.serve ev s).status.haz = true) ∧
    (¬ clearsSticky s 4 ev → s.status.buserr = true → (State.serve ev s).status.buserr = true) ∧
    (¬ clearsSticky s 5 ev → s.status.pixerr = true → (State.serve ev s).status.pixerr = true)) ∧
  (∀ (s t : State) (w : Word), runCommand w s = .next t →
    t.status.haz = s.status.haz ∧ t.status.buserr = s.status.buserr ∧ t.status.pixerr = s.status.pixerr) ∧
  (∀ (s : State) (v : Word),
    (v.getLsbD 3 = true → (s.busWrite RegName.status.addr v 0xF).status.haz = false) ∧
    (v.getLsbD 4 = true → (s.busWrite RegName.status.addr v 0xF).status.buserr = false) ∧
    (v.getLsbD 5 = true → (s.busWrite RegName.status.addr v 0xF).status.pixerr = false)) ∧
  (∀ (s : State) (addr data : Word) (strobe : BitVec 4),
    (busAccess s.cfg addr = none →
      (s.busRead addr).status.buserr = true ∧ (s.busWrite addr data strobe).status.buserr = true) ∧
    (s.busy = true →
      (s.busRead RegName.pixData.addr).status.haz = true ∧ (s.busWrite RegName.cmd.addr data 0xF).status.haz = true) ∧
    (s.busy = false → ¬ s.pixIn → (s.busRead RegName.pixData.addr).status.pixerr = true ∧
      (s.busWrite RegName.pixData.addr data 0xF).status.pixerr = true))

/-- The accesses that 70_reset_and_hazards.md R560 serves while BUSY = 1. -/
def servedWhileBusy (ev : HostEvent) : Prop :=
  ev = .read RegName.id.addr ∨ ev = .read RegName.ctrl.addr ∨ ev = .read RegName.status.addr ∨
  (∃ v, ev = .write RegName.status.addr v 0xF) ∨
  (∃ v : Word, v.getLsbD 1 = false ∧ ev = .write RegName.ctrl.addr v 0xF)

/-- While BUSY = 1, a refused write or read of a mapped address sets HAZ and does nothing else (the value a refused read
returns is unspecified), the served accesses do what they do at any time, and a BUSERR access sets BUSERR as at any other
time and not also HAZ (70_reset_and_hazards.md §2, R560). That a write of a read-only register, or a GW or BM write with
strobe 0b0000, is refused with HAZ too is the model's reading (assumption 14), and so is BUSERR for a register write with
strobe 0b0000 (assumption 9). -/
def Obligations.AccessWhileBusy : Prop :=
  ∀ s : State, s.busy = true →
    (∀ (addr data : Word) (strobe : BitVec 4) (t : Target), busAccess s.cfg addr = some t →
      partialRegWrite t strobe = false → ¬ servedWhileBusy (.write addr data strobe) →
      s.busWrite addr data strobe = s.setHaz) ∧
    (∀ (addr : Word) (t : Target), busAccess s.cfg addr = some t → ¬ servedWhileBusy (.read addr) →
      ∃ v n, s.busRead addr = { s.setHaz with busData := v, draws := n }) ∧
    (∀ r : RegName, r = .id ∨ r = .ctrl ∨ r = .status → s.busRead r.addr = { s with busData := s.readReg r }) ∧
    (∀ v : Word, s.busWrite RegName.status.addr v 0xF = { s with status := s.status.w1c v }) ∧
    (∀ v : Word, v.getLsbD 1 = false → s.busWrite RegName.ctrl.addr v 0xF = { s with ie := v.getLsbD 0 }) ∧
    (∀ (addr data : Word) (strobe : BitVec 4),
      (busAccess s.cfg addr = none →
        s.busWrite addr data strobe = s.setBuserr ∧ s.busRead addr = { s.setBuserr with busData := 0 }) ∧
      (∀ t, busAccess s.cfg addr = some t → partialRegWrite t strobe = true →
        s.busWrite addr data strobe = s.setBuserr)) ∧
    s.setBuserr.status.haz = s.status.haz

/-- "The host cannot observe a partly executed command" (20_memory.md R121), and no access changes a running command
(20_memory.md R124, 70_reset_and_hazards.md R561): whatever the host does while BUSY = 1, short of a hardware reset, the
engine, every operand and result register, CMD, PB, BM and GW stay; and what a read returns does not depend on them. Of a
refused read, whose value 70_reset_and_hazards.md R560 leaves unspecified, that is the model's choice: a free value of the
counter `draws` (assumption 7, DESIGN CHOICE). -/
def Obligations.HostCannotTouchARunningCommand : Prop :=
  (∀ (s s' : State) (addr : Word), s.busy = true → s'.busy = true → s.cfg = s'.cfg → s.ie = s'.ie →
    s.status = s'.status → s.draws = s'.draws → (s.busRead addr).busData = (s'.busRead addr).busData) ∧
  ∀ (s : State) (ev : HostEvent), s.busy = true → ev ≠ .hardReset →
    let t := State.serve ev s
    t.engine = s.engine ∧ t.ops = s.ops ∧ t.res = s.res ∧ t.cmd = s.cmd ∧ t.pb = s.pb ∧ t.bm = s.bm ∧ t.gw = s.gw ∧
    t.pixRow = s.pixRow ∧ t.pixCol = s.pixCol ∧ t.cfg = s.cfg ∧ t.inputs = s.inputs

/-- 10_state.md R38: an accepted CMD write, a refused one, and what CMD reads. -/
def Obligations.CmdWriteStartsTheCommand : Prop :=
  ∀ (s : State) (w : Word),
    (s.busy = false →
      let t := s.busWrite RegName.cmd.addr w 0xF
      t.cmd = w ∧ t.readReg .cmd = w ∧ t.busy = true ∧ (∃ e, t.engine = some e ∧ e.word = w ∧ e.inputs = s.sample) ∧
      t.status.done = false ∧ t.status.errClass = 0 ∧ t.status.errDetail = 0 ∧ t.status.errInfo = 0 ∧
      t.status.haz = s.status.haz ∧ t.status.buserr = s.status.buserr ∧ t.status.pixerr = s.status.pixerr ∧
      t.ops = s.ops ∧ t.res = s.res ∧ t.pb = s.pb ∧ t.bm = s.bm ∧ t.gw = s.gw ∧ t.ie = s.ie ∧
      t.pixRow = s.pixRow ∧ t.pixCol = s.pixCol ∧ t.cfg = s.cfg) ∧
    (s.busy = true → s.busWrite RegName.cmd.addr w 0xF = s.setHaz ∧ s.setHaz.cmd = s.cmd ∧ s.setHaz.engine = s.engine)

/-- 40_pixelbuffer.md R240 and R241: the pixel port, while BUSY = 1 and while BUSY = 0. -/
def Obligations.PixelPortReadsAndWrites : Prop :=
  (∀ (s : State) (v : Word), s.busy = true →
    (∃ d n, s.busRead RegName.pixData.addr = { s.setHaz with busData := d, draws := n }) ∧
    s.busWrite RegName.pixData.addr v 0xF = s.setHaz) ∧
  ∀ (s : State) (v : Word), s.busy = false →
    let row := s.pixRow.toNat
    let col := s.pixCol.toNat
    (row < s.pb.h.toNat → col < s.pb.w.toNat →
      let p := s.pb.px row col
      let t := s.busWrite RegName.pixData.addr v 0xF
      s.busRead RegName.pixData.addr = { s with busData := 0x00#8 ++ p.b ++ p.g ++ p.r } ∧
      t.pb.px row col = ⟨v.extractLsb' 0 8, v.extractLsb' 8 8, v.extractLsb' 16 8⟩ ∧
      (t.pb.cells.get? (row * s.pb.w.toNat + col)).isSome ∧
      (∀ i, i ≠ row * s.pb.w.toNat + col → t.pb.cell i = s.pb.cell i) ∧
      t = { s with pb := { s.pb with cells := t.pb.cells } }) ∧
    (¬ (row < s.pb.h.toNat ∧ col < s.pb.w.toNat) →
      s.busRead RegName.pixData.addr = { s.setPixerr with busData := 0 } ∧
      s.busWrite RegName.pixData.addr v 0xF = s.setPixerr)

/-! ### Completion, errors, interrupt -/

/-- Every command completes, in every state: it ends in `done`, or it reports one error and changes nothing else
(00_scope.md R13, 60_exceptions.md R503), and either way what no command writes stays. -/
def Obligations.EveryCommandEndsInDoneOrError : Prop :=
  ∀ (i : Instr) (s : State), ∃ t, exec i s = .next t ∧ CommandFrame s t ∧
    (DoneFrame s t ∨ ∃ e : CmdError, t = s.raise e)

/-- The table of 60_exceptions.md R501: class, detail and information value of each error. -/
def errorRow : CmdError → Nat × Nat × Nat
  | .bmpMagic magic => (2, 0x01, magic)
  | .bmpOffset off => (2, 0x02, off)
  | .bmpTrunc need => (2, 0x03, need)
  | .bmpDim which => (2, 0x04, which)
  | .pngSig => (2, 0x10, 0)
  | .pngTrunc need => (2, 0x11, need)
  | .pngType offset => (2, 0x12, offset)
  | .pngCrc offset => (2, 0x13, offset)
  | .pngNoIhdr => (2, 0x14, 8)
  | .pngIhdrParam offset => (2, 0x15, offset)
  | .rgbShort need => (2, 0x20, need)
  | .slTrunc need => (2, 0x21, need)
  | .a7Dim pass => (2, 0x22, pass)
  | .a7Trunc need => (2, 0x23, need)
  | .blackoutOob => (3, 0x01, 0)
  | .filterType value => (3, 0x02, value)
  | .passCount n => (3, 0x03, n)
  | .capacity => (3, 0x04, 0)
  | .bmBounds window => (3, 0x05, window)
  | .dstCap n => (3, 0x06, n)
  | .overlap => (3, 0x07, 0)
  | .gaussRadius r => (3, 0x08, r)
  | .nonfinite index => (3, 0x09, index)
  | .opcode word => (4, 0x01, word)
  | .reservedBits word => (4, 0x02, word)

/-- 60_exceptions.md R503: error completion, one step for all of it, and nothing else changes; each error with the class,
detail and information value of its row of R501. -/
def Obligations.ErrorCompletion : Prop :=
  ∀ (s : State) (e : CmdError),
    let t := s.raise e
    t.busy = false ∧ t.status.done = true ∧ t.status.errClass.toNat = (errorRow e).1 ∧
    t.status.errDetail.toNat = (errorRow e).2.1 ∧ t.status.errInfo.toNat = min (errorRow e).2.2 0xFFFFFFFF ∧
    (t.status.errClass, t.status.errDetail) ∈ errorCodes ∧
    t.status.err = true ∧
    t.status.haz = s.status.haz ∧ t.status.buserr = s.status.buserr ∧ t.status.pixerr = s.status.pixerr ∧
    t = { s with status := t.status, engine := none }

/-- 10_state.md R69 and 60_exceptions.md R510: IRQ is `CTRL.IE and STATUS.DONE`, so it rises on every completion of any
word when IE = 1; and the four events of R511 make it fall. -/
def Obligations.InterruptLevel : Prop :=
  (∀ s : State, s.irq = (s.ie && s.status.done)) ∧
  (∀ (s t : State) (w : Word), runCommand w s = .next t → t.irq = s.ie) ∧
  (∀ (s : State) (v : Word), v.getLsbD 1 = true → (s.busWrite RegName.status.addr v 0xF).irq = false) ∧
  (∀ (s : State) (v : Word), v.getLsbD 1 = false → v.getLsbD 0 = false →
    (s.busWrite RegName.ctrl.addr v 0xF).irq = false) ∧
  (∀ (s : State) (w : Word), s.busy = false → (s.busWrite RegName.cmd.addr w 0xF).irq = false) ∧
  (∀ s : State, s.softReset.irq = false ∧ s.hardReset.irq = false)

/-! ### Pixel buffer commands -/

/-- NOP (40_pixelbuffer.md §2, R201); acceptance puts the word in CMD and 0 in ERR_INFO (10_state.md R35, R38, R41), and no
other register but STATUS changes. The last clause runs an accepted CMD write by withFetchWord, whose completion is due at
once by the model's choice (assumption 5). -/
def Obligations.NopOnlyCompletes : Prop :=
  encode .nop = 0x00000000 ∧
  (∀ opt : Nat, 0 < opt → opt < 256 → decode (BitVec.ofNat 32 (256 * opt)) = .error .reservedBits) ∧
  (∀ s : State, exec .nop s = .next { s with engine := none, status := { s.status with done := true } }) ∧
  ∀ s : State, ∃ t, step (s.withFetchWord 32 0) = .next t ∧ t.busy = false ∧ t.status.done = true ∧
    t.status.errClass = 0 ∧ ∀ r : RegName, r ≠ .status → r ≠ .cmd → r ≠ .errInfo → t.readReg r = s.readReg r

/-- 40_pixelbuffer.md R205. -/
def Obligations.ClearMakesTheEmptyImage : Prop :=
  encode .pbClear = 0x00000010 ∧
  ∀ s : State, ∃ t, exec .pbClear s = .next t ∧ ImageFrame s t ∧
    t.pb.h = 0 ∧ t.pb.w = 0 ∧ t.pb.offset = 54 ∧ t.readReg .pbCount = 0 ∧ t.pb.cells = s.pb.cells

/-- 40_pixelbuffer.md R206: the capacity check, the dimensions, and h*w undefined cells. -/
def Obligations.AllocMakesUndefinedCells : Prop :=
  encode .pbAlloc = 0x00000011 ∧
  ∀ s : State,
    let x := s.inputs
    ((x.dimH > 2 ^ 31 - 1 ∨ x.dimW > 2 ^ 31 - 1 ∨ x.dimH * x.dimW > s.cfg.pbCells) →
      exec .pbAlloc s = .next (s.raise .capacity)) ∧
    (x.dimH ≤ 2 ^ 31 - 1 → x.dimW ≤ 2 ^ 31 - 1 → x.dimH * x.dimW ≤ s.cfg.pbCells →
      ∃ t, exec .pbAlloc s = .next t ∧ ImageFrame s t ∧
        t.pb.h = x.ops.dimH ∧ t.pb.w = x.ops.dimW ∧ t.pb.offset = 54 ∧
        (∀ i, i < x.dimH * x.dimW → t.pb.cells.get? i = none) ∧
        ∀ i, x.dimH * x.dimW ≤ i → t.pb.cells.get? i = s.pb.cells.get? i)

/-- 40_pixelbuffer.md R207. -/
def Obligations.LoadRgbBuildsTheImage : Prop :=
  encode .pbLoadRgb = 0x00000012 ∧
  ∀ s : State,
    let x := s.inputs
    let fits := x.dimH ≤ 2 ^ 31 - 1 ∧ x.dimW ≤ 2 ^ 31 - 1 ∧ x.dimH * x.dimW ≤ s.cfg.pbCells
    let need := 3 * x.dimH * x.dimW
    (x.srcAddr + x.srcLen > s.cfg.bmBytes → exec .pbLoadRgb s = .next (s.raise (.bmBounds 0))) ∧
    (x.srcAddr + x.srcLen ≤ s.cfg.bmBytes → ¬ fits → exec .pbLoadRgb s = .next (s.raise .capacity)) ∧
    (x.srcAddr + x.srcLen ≤ s.cfg.bmBytes → fits → x.srcLen < need →
      exec .pbLoadRgb s = .next (s.raise (.rgbShort need))) ∧
    (x.srcAddr + x.srcLen ≤ s.cfg.bmBytes → fits → need ≤ x.srcLen →
      ∃ t, exec .pbLoadRgb s = .next t ∧ ImageFrame s t ∧
        t.pb.h = x.ops.dimH ∧ t.pb.w = x.ops.dimW ∧ t.pb.offset = 54 ∧
        (∀ r c, r < x.dimH → c < x.dimW →
          let k := x.srcAddr + 3 * (r * x.dimW + c)
          t.pb.px r c = ⟨bmByte x.bm k, bmByte x.bm (k + 1), bmByte x.bm (k + 2)⟩) ∧
        ∀ i, x.dimH * x.dimW ≤ i → t.pb.cell i = s.pb.cell i)

/-- 40_pixelbuffer.md R208. -/
def Obligations.StoreRgbWritesTheImage : Prop :=
  encode .pbStoreRgb = 0x00000013 ∧
  ∀ s : State,
    let x := s.inputs
    let n := 3 * x.h * x.w
    (x.dstAddr + x.dstCap > s.cfg.bmBytes → exec .pbStoreRgb s = .next (s.raise (.bmBounds 1))) ∧
    (x.dstAddr + x.dstCap ≤ s.cfg.bmBytes → n > x.dstCap → exec .pbStoreRgb s = .next (s.raise (.dstCap n))) ∧
    (x.dstAddr + x.dstCap ≤ s.cfg.bmBytes → n ≤ x.dstCap →
      ∃ t, exec .pbStoreRgb s = .next t ∧ OutputFrame n s t ∧ t.ops = s.ops ∧ t.res.ihdr = s.res.ihdr ∧
        ∀ r c, r < x.h → c < x.w →
          let k := x.dstAddr + 3 * (r * x.w + c)
          bmByte t.bm k = (x.px r c).r ∧ bmByte t.bm (k + 1) = (x.px r c).g ∧ bmByte t.bm (k + 2) = (x.px r c).b)

/-- 40_pixelbuffer.md R210: the rectangle is zeroed, an empty one does nothing, one that leaves the image is an error. -/
def Obligations.BlackoutZeroesTheRectangle : Prop :=
  encode .pbBlackout = 0x00000014 ∧
  ∀ s : State,
    let x := s.inputs
    let r0 := x.ops.arg0.toNat
    let r1 := x.ops.arg1.toNat
    let c0 := x.ops.arg2.toNat
    let c1 := x.ops.arg3.toNat
    (r0 < r1 → c0 < c1 → (r1 > x.h ∨ c1 > x.w) → exec .pbBlackout s = .next (s.raise .blackoutOob)) ∧
    ((r0 ≥ r1 ∨ c0 ≥ c1) → ∃ t, exec .pbBlackout s = .next t ∧ ImageFrame s t ∧ t.pb = s.pb) ∧
    (r0 < r1 → c0 < c1 → r1 ≤ x.h → c1 ≤ x.w → ∃ t, exec .pbBlackout s = .next t ∧ PixelFrame s t ∧
      ∀ r c, r < x.h → c < x.w → t.pb.cell (r * x.w + c) =
        if r0 ≤ r ∧ r < r1 ∧ c0 ≤ c ∧ c < c1 then ⟨0, 0, 0⟩ else s.pb.cell (r * x.w + c))

/-- The result of PB_GREY on every pixel, which never exceeds 230, and its frame (40_pixelbuffer.md §4, R215). -/
def Obligations.GreyScaleOfEveryPixel : Prop :=
  encode .pbGrey = 0x00000015 ∧
  (∀ r g b : Nat, r < 256 → g < 256 → b < 256 → (10000 * r + 7152 * g + 10000 * b + 5000) / 30000 ≤ 230) ∧
  ∀ s : State, ∃ t, exec .pbGrey s = .next t ∧ PixelFrame s t ∧
    ∀ r c, r < s.inputs.h → c < s.inputs.w →
      let p := s.inputs.px r c
      let v : Byte := BitVec.ofNat 8 ((10000 * p.r.toNat + 7152 * p.g.toNat + 10000 * p.b.toNat + 5000) / 30000)
      t.pb.cell (r * s.inputs.w + c) = ⟨v, v, v⟩

/-- The result of PB_GREY_LUMA on every pixel, one less than the exact quotient on LUMA_EXC, and its frame
(40_pixelbuffer.md §4, R216, R217). On every member of LUMA_EXC n is a positive multiple of 30000, so the exact value is an
integer. -/
def Obligations.GreyLumaOfEveryPixel : Prop :=
  encode .pbGreyLuma = 0x00000016 ∧
  (∀ q ∈ lumaExc, (2126 * q.1 + 7152 * q.2.1 + 722 * q.2.2 + 5000) % 30000 = 0 ∧
    30000 ≤ 2126 * q.1 + 7152 * q.2.1 + 722 * q.2.2 + 5000) ∧ lumaExc.length = 258 ∧
  ∀ s : State, ∃ t, exec .pbGreyLuma s = .next t ∧ PixelFrame s t ∧
    ∀ r c, r < s.inputs.h → c < s.inputs.w →
      let p := s.inputs.px r c
      let q := (2126 * p.r.toNat + 7152 * p.g.toNat + 722 * p.b.toNat + 5000) / 30000
      let v : Byte := BitVec.ofNat 8 (if (p.r.toNat, p.g.toNat, p.b.toNat) ∈ lumaExc then q - 1 else q)
      t.pb.cell (r * s.inputs.w + c) = ⟨v, v, v⟩

/-- The result of PB_COLOR_MASK on every channel, `clamp(floorDiv(ch * F, 256), 0, 255)`, its corner cases, and its frame
(40_pixelbuffer.md §4, R220). The corner of F = 0x7FFF is stated for channels of at least 2 (assumption 18). -/
def Obligations.ColorMaskOfEveryPixel : Prop :=
  encode .pbColorMask = 0x00000017 ∧
  (∀ (v : Byte) (f : Int),
    (f < 0 → maskChannel f v = 0) ∧ maskChannel 0x100 v = v ∧ (2 ≤ v.toNat → maskChannel 0x7FFF v = 255)) ∧
  ∀ s : State, ∃ t, exec .pbColorMask s = .next t ∧ PixelFrame s t ∧
    ∀ r c, r < s.inputs.h → c < s.inputs.w →
      let p := s.inputs.px r c
      let q := t.pb.cell (r * s.inputs.w + c)
      (q.r.toNat : Int) = min (max ((p.r.toNat : Int) * s.inputs.ops.cmFr.toInt / 256) 0) 255 ∧
      (q.g.toNat : Int) = min (max ((p.g.toNat : Int) * s.inputs.ops.cmFg.toInt / 256) 0) 255 ∧
      (q.b.toNat : Int) = min (max ((p.b.toNat : Int) * s.inputs.ops.cmFb.toInt / 256) 0) 255

/-- The result of PB_SEPIA on every pixel, for every sepia matrix, and its frame (40_pixelbuffer.md §4, R223). -/
def Obligations.SepiaOfEveryPixel : Prop :=
  encode .pbSepia = 0x00000018 ∧
  ∀ s : State, ∃ t, exec .pbSepia s = .next t ∧ PixelFrame s t ∧
    ∀ r c, r < s.inputs.h → c < s.inputs.w →
      let p := s.inputs.px r c
      let q := t.pb.cell (r * s.inputs.w + c)
      let out (m : SepiaRow) := min ((m.fromR * p.r.toNat + m.fromG * p.g.toNat + m.fromB * p.b.toNat) / 1000) 255
      q.r.toNat = out s.cfg.sepiaR ∧ q.g.toNat = out s.cfg.sepiaG ∧ q.b.toNat = out s.cfg.sepiaB

/-- The results of PB_REFLECT_H and PB_REFLECT_V on every pixel, and their frames; and either one applied twice is the
identity on every cell (40_pixelbuffer.md §4, R226, R227). -/
def Obligations.ReflectionsAreMirrors : Prop :=
  encode .pbReflectH = 0x00000019 ∧ encode .pbReflectV = 0x0000001A ∧
  (∀ (i : Instr) (s t u : State), i = .pbReflectH ∨ i = .pbReflectV → s.engine = none →
    exec i s = .next t → exec i t = .next u → ∀ k, u.pb.cell k = s.pb.cell k) ∧
  ∀ s : State,
    (∃ t, exec .pbReflectH s = .next t ∧ PixelFrame s t ∧ ∀ r c, r < s.inputs.h → c < s.inputs.w →
      t.pb.cell (r * s.inputs.w + c) = s.inputs.px r (s.inputs.w - 1 - c)) ∧
    (∃ t, exec .pbReflectV s = .next t ∧ PixelFrame s t ∧ ∀ r c, r < s.inputs.h → c < s.inputs.w →
      t.pb.cell (r * s.inputs.w + c) = s.inputs.px (s.inputs.h - 1 - r) c)

/-! ### BMP -/

/-- BMP_DECODE of a legal file: the pixels, the reflection of a top-down file, the dimensions, PB_OFFSET and TOPDOWN, and
the frame (41_bmp.md §2, R252, R255 to R258). -/
def Obligations.BmpDecodeReadsTheFile : Prop :=
  encode .bmpDecode = 0x00000020 ∧
  ∀ (s : State) (w hn off stride : Nat) (topdown : Bool),
    let x := s.inputs
    x.srcAddr + x.srcLen ≤ s.cfg.bmBytes → x.src 0 = 0x42 → x.src 1 = 0x4D → x.le32 10 = off → 54 ≤ off →
    x.le32s 18 = (w : Int) → x.le32s 22 = (if topdown then -(hn : Int) else (hn : Int)) →
    (topdown = true → 0 < hn) → hn < 2 ^ 31 →
    hn * w ≤ s.cfg.pbCells → stride = 3 * w + (4 - (w * 3) % 4) % 4 → off + hn * stride ≤ x.srcLen →
    ∃ t, exec .bmpDecode s = .next t ∧ DoneFrame s t ∧ t.ops = s.ops ∧ t.bm = s.bm ∧
      t.res = { s.res with topdown := topdown } ∧
      t.pb.h.toNat = hn ∧ t.pb.w.toNat = w ∧ t.pb.offset.toNat = off ∧
      (∀ r c, r < hn → c < w →
        let k := off + (if topdown then hn - 1 - r else r) * stride + 3 * c
        t.pb.px r c = ⟨x.src (k + 2), x.src (k + 1), x.src k⟩) ∧
      ∀ i, hn * w ≤ i → t.pb.cell i = s.pb.cell i

/-- The failures of BMP_DECODE, in the order of its checks (41_bmp.md §2, R252 to R254). -/
def Obligations.BmpDecodeFailsInOrder : Prop :=
  ∀ s : State,
    let x := s.inputs
    let w := x.le32s 18
    let h := x.le32s 22
    let off := x.le32 10
    let need := off + h.natAbs * bmpStride w.toNat
    let c1 := x.srcAddr + x.srcLen ≤ s.cfg.bmBytes
    let c2 := c1 ∧ 54 ≤ x.srcLen
    let c3 := c2 ∧ x.src 0 = 0x42 ∧ x.src 1 = 0x4D
    let c4 := c3 ∧ 54 ≤ off
    let c5 := c4 ∧ 0 ≤ w
    let c6 := c5 ∧ h ≠ -2147483648
    let c7 := c6 ∧ h.natAbs * w.toNat ≤ s.cfg.pbCells
    (¬ c1 → exec .bmpDecode s = .next (s.raise (.bmBounds 0))) ∧
    (c1 → ¬ c2 → exec .bmpDecode s = .next (s.raise (.bmpTrunc 54))) ∧
    (c2 → ¬ c3 → exec .bmpDecode s = .next (s.raise (.bmpMagic ((x.src 0).toNat + 256 * (x.src 1).toNat)))) ∧
    (c3 → ¬ c4 → exec .bmpDecode s = .next (s.raise (.bmpOffset off))) ∧
    (c4 → ¬ c5 → exec .bmpDecode s = .next (s.raise (.bmpDim 0))) ∧
    (c5 → ¬ c6 → exec .bmpDecode s = .next (s.raise (.bmpDim 1))) ∧
    (c6 → ¬ c7 → exec .bmpDecode s = .next (s.raise .capacity)) ∧
    (c7 → x.srcLen < need → exec .bmpDecode s = .next (s.raise (.bmpTrunc need)))

/-- BMP_ENCODE: its checks, every header byte, every pixel and pad byte, OUT_LEN, and the frame (41_bmp.md §3, R260 to
R263). -/
def Obligations.BmpEncodeWritesTheFile : Prop :=
  encode .bmpEncode = 0x00000021 ∧
  ∀ s : State,
    let x := s.inputs
    let stride := 3 * x.w + (4 - (x.w * 3) % 4) % 4
    let n := 54 + x.h * stride
    let le (v k : Nat) : Byte := BitVec.ofNat 8 (v / 256 ^ k)
    (x.dstAddr + x.dstCap > s.cfg.bmBytes → exec .bmpEncode s = .next (s.raise (.bmBounds 1))) ∧
    (x.dstAddr + x.dstCap ≤ s.cfg.bmBytes → n > x.dstCap → exec .bmpEncode s = .next (s.raise (.dstCap n))) ∧
    (x.dstAddr + x.dstCap ≤ s.cfg.bmBytes → n ≤ x.dstCap →
      ∃ t, exec .bmpEncode s = .next t ∧ OutputFrame n s t ∧ t.ops = s.ops ∧ t.res.ihdr = s.res.ihdr ∧
        let o (k : Nat) : Byte := bmByte t.bm (x.dstAddr + k)
        o 0 = 0x42 ∧ o 1 = 0x4D ∧
        (∀ k, k < 4 → o (2 + k) = le n k ∧ o (6 + k) = 0 ∧ o (10 + k) = le 54 k ∧ o (14 + k) = le 40 k ∧
          o (18 + k) = le x.w k ∧ o (22 + k) = le x.h k) ∧
        (∀ k, k < 2 → o (26 + k) = le 1 k ∧ o (28 + k) = le 24 k) ∧ (∀ k, 30 ≤ k → k < 54 → o k = 0) ∧
        ∀ r, r < x.h →
          (∀ c, c < x.w → o (54 + r * stride + 3 * c) = (x.px r c).b ∧ o (54 + r * stride + 3 * c + 1) = (x.px r c).g ∧
            o (54 + r * stride + 3 * c + 2) = (x.px r c).r) ∧
          ∀ q, 3 * x.w ≤ q → q < stride → o (54 + r * stride + q) = 0)

/-- The operand registers with another source window. -/
def withSource (addr len : Word) (s : State) : State := { s with ops := { s.ops with srcAddr := addr, srcLen := len } }

/-- The operand registers with another source window and other image dimensions. -/
def withSourceAndDims (addr len h w : Word) (s : State) : State :=
  { s with ops := { s.ops with srcAddr := addr, srcLen := len, dimH := h, dimW := w } }

/-- 41_bmp.md R264 (c): BMP_ENCODE, then BMP_DECODE of the bytes it wrote into any other PB, reproduces every pixel, PB_H
and PB_W, and gives PB_OFFSET = 54 and TOPDOWN = 0; the cells past the image stay those of that PB. -/
def Obligations.BmpEncodeThenDecodeIsTheIdentity : Prop :=
  ∀ (s t : State) (pb : PixelBuffer), s.Inv → s.cfg.legal → s.engine = none →
    s.inputs.dstAddr + s.inputs.dstCap ≤ s.cfg.bmBytes → 54 + s.inputs.h * bmpStride s.inputs.w ≤ s.inputs.dstCap →
    exec .bmpEncode s = .next t →
    ∃ u, exec .bmpDecode (withSource s.ops.dstAddr t.res.outLen { t with pb := pb }) = .next u ∧
      u.status.err = t.status.err ∧ u.pb.h = s.pb.h ∧ u.pb.w = s.pb.w ∧ u.pb.offset = 54 ∧ u.res.topdown = false ∧
      (∀ k, k < s.pb.h.toNat * s.pb.w.toNat → u.pb.cell k = s.pb.cell k) ∧
      ∀ k, s.pb.h.toNat * s.pb.w.toNat ≤ k → u.pb.cell k = pb.cell k

/-! ### Convolution and Gaussian blur -/

/-- Kernel element i lands at (r, c) on row r + floor(i/3) - 1 and column c + (i mod 3) - 1 (42_convolution.md R300); it is
valid when that is inside the image. -/
abbrev validTap (x : Inputs) (r c i : Nat) : Prop :=
  1 ≤ r + i / 3 ∧ r + i / 3 ≤ x.h ∧ 1 ≤ c + i % 3 ∧ c + i % 3 ≤ x.w

/-- The pixel under kernel element i. -/
def tapPixel (x : Inputs) (r c i : Nat) : Pixel := x.px (r + i / 3 - 1) (c + i % 3 - 1)

/-- The sum of `weight i` times channel `ch` over the valid neighbours (42_convolution.md R301). -/
def validSum (x : Inputs) (weight : Nat → Int) (r c ch : Nat) : Int :=
  ∑ i ∈ Finset.range 9, if validTap x r c i then weight i * ((tapPixel x r c i).ch ch).toNat else 0

/-- The number of valid neighbours (42_convolution.md R301). -/
def validCount (x : Inputs) (r c : Nat) : Nat := ((Finset.range 9).filter fun i => validTap x r c i).card

/-- CONV3 on every channel of every pixel, normalised and raw, and its frame (42_convolution.md §1, R300 to R303). -/
def Obligations.ConvolutionOfEveryPixel : Prop :=
  encode (.conv3 false) = 0x00000030 ∧ encode (.conv3 true) = 0x00000130 ∧
  ∀ (norm : Bool) (s : State), ∃ t, exec (.conv3 norm) s = .next t ∧ PixelFrame s t ∧
    ∀ r c, r < s.inputs.h → c < s.inputs.w → ∀ ch, ch < 3 →
      let sum := validSum s.inputs (fun i => (s.inputs.ops.k.toList.getD i 0).toInt) r c ch
      let cnt : Int := validCount s.inputs r c
      (((t.pb.cell (r * s.inputs.w + c)).ch ch).toNat : Int) =
        min (max (if norm then (2 * sum + cnt) / (2 * cnt) else sum) 0) 255

/-- The corner cases of CONV3: the count is 1 to 9 and the sum fits 20 bits signed (42_convolution.md §1, R304). -/
def Obligations.ConvolutionAccumulatorBounds : Prop :=
  ∀ (x : Inputs) (r c ch : Nat), r < x.h → c < x.w →
    1 ≤ tapCount x.h x.w r c ∧ tapCount x.h x.w r c ≤ 9 ∧
    (2 ≤ x.h → 2 ≤ x.w → tapCount x.h x.w r c = 4 ∨ tapCount x.h x.w r c = 6 ∨ tapCount x.h x.w r c = 9) ∧
    (x.tapSum x.kernel r c ch).natAbs ≤ 293760

/-- `isqrt(n)` is "the largest integer r with r*r <= n" (00_scope.md R10), and Mag(s) is the rounded root, clamped to 255
(42_convolution.md R311). -/
def Obligations.MagnitudeIsTheRoundedRoot : Prop :=
  (∀ n, isqrt n * isqrt n ≤ n ∧ n < (isqrt n + 1) * (isqrt n + 1)) ∧ magnitude 0 = 0 ∧
  ∀ s n : Nat, n * n < s + n → s ≤ n * n + n → magnitude s = min 255 n

/-- EDGES on every channel of every pixel, and its frame (42_convolution.md §2, R310). -/
def Obligations.EdgesOverlayEveryPixel : Prop :=
  encode .edges = 0x00000031 ∧
  ∀ s : State, ∃ t, exec .edges s = .next t ∧ PixelFrame s t ∧
    ∀ r c, r < s.inputs.h → c < s.inputs.w → ∀ ch, ch < 3 →
      let gx := validSum s.inputs (fun i => [-1, 0, 1, -2, 0, 2, -1, 0, 1].getD i 0) r c ch
      let gy := validSum s.inputs (fun i => [-1, -2, -1, 0, 0, 0, 1, 2, 1].getD i 0) r c ch
      let m := magnitude (gx * gx + gy * gy).toNat
      let o := ((s.inputs.px r c).ch ch).toNat
      ((t.pb.cell (r * s.inputs.w + c)).ch ch).toNat = if 100 ≤ ((o : Int) - m).natAbs then m else o

/-- The number of a finite binary64 datum (00_scope.md R11). -/
def finValue (neg : Bool) (m : Nat) (e : Int) : ℚ := (if neg then -1 else 1) * (m : ℚ) * (2 : ℚ) ^ e

/-- Significand and exponent of a finite binary64 number: 53 bits, the first of them set unless the exponent is least. -/
abbrev canonical64 (m : Nat) (e : Int) : Prop := m < 2 ^ 53 ∧ -1074 ≤ e ∧ e ≤ 971 ∧ (2 ^ 52 ≤ m ∨ e = -1074)

/-- `y` is the finite binary64 number nearest to `v`; where another one is as near, the significand of `y` is even. -/
def nearestEven (v y : ℚ) : Prop :=
  ∃ neg m e, canonical64 m e ∧ y = finValue neg m e ∧ ∀ neg' m' e', canonical64 m' e' →
    |y - v| ≤ |finValue neg' m' e' - v| ∧
      (|finValue neg' m' e' - v| = |y - v| → finValue neg' m' e' ≠ y → m % 2 = 0)

/-- `r` is the datum of sign `neg` that the exact value `v` rounds to: finite below 2^1024 - 2^970, else infinite. -/
def roundsTo (neg : Bool) (v : ℚ) (r : F64) : Prop :=
  if |v| < 2 ^ 1024 - 2 ^ 970 then ∃ m e, r = .fin neg m e ∧ nearestEven v (finValue neg m e) else r = .inf neg

/-- The datum of each 64-bit pattern, `fadd` and `fmul` as the exact sum and product rounded to nearest, ties to even, with
their signed zeros, infinities and NaN, `toF64`, and `ToPixelF` (00_scope.md §5, R11, R14; 42_convolution.md §3, R322). The
IEEE 754 semantics is the spec's own general knowledge (assumption 13). -/
def Obligations.Binary64RoundsToNearestEven : Prop :=
  (∀ v : BitVec 64,
    let neg := decide (2 ^ 63 ≤ v.toNat)
    let ex : Nat := v.toNat / 2 ^ 52 % 2 ^ 11
    let frac : Nat := v.toNat % 2 ^ 52
    (ex = 2047 → F64.ofBits v = if frac = 0 then .inf neg else .nan) ∧
    (ex = 0 → ∃ m e, F64.ofBits v = .fin neg m e ∧ (m : ℚ) * 2 ^ e = (frac : ℚ) * 2 ^ (-1074 : Int)) ∧
    (0 < ex → ex < 2047 → ∃ m e, F64.ofBits v = .fin neg m e ∧
      (m : ℚ) * 2 ^ e = (2 ^ 52 + (frac : ℚ)) * 2 ^ ((ex : Int) - 1075))) ∧
  (∀ (na nb : Bool) (ma mb : Nat) (ea eb : Int),
    let a := F64.fin na ma ea
    let b := F64.fin nb mb eb
    let sum := finValue na ma ea + finValue nb mb eb
    (sum ≠ 0 → roundsTo (decide (sum < 0)) sum (a.add b)) ∧ (sum = 0 → ∃ e, a.add b = .fin (na && nb) 0 e) ∧
    roundsTo (na != nb) (finValue na ma ea * finValue nb mb eb) (a.mul b)) ∧
  (∀ x : F64, F64.nan.add x = .nan ∧ x.add .nan = .nan ∧ F64.nan.mul x = .nan ∧ x.mul .nan = .nan) ∧
  (∀ (p q : Bool) (m : Nat) (e : Int),
    (F64.inf p).add (.fin q m e) = .inf p ∧ (F64.fin q m e).add (.inf p) = .inf p ∧
    (F64.inf p).add (.inf q) = (if p = q then .inf p else .nan) ∧ (F64.inf p).mul (.inf q) = .inf (p != q) ∧
    (F64.inf p).mul (.fin q m e) = (if m = 0 then .nan else .inf (p != q)) ∧
    (F64.fin q m e).mul (.inf p) = (if m = 0 then .nan else .inf (p != q))) ∧
  (∀ n : Nat, ∃ m e, F64.ofNat n = .fin false m e ∧ finValue false m e = n) ∧
  F64.nan.toChannel = none ∧ (F64.inf true).toChannel = some 0 ∧ (F64.inf false).toChannel = some 255 ∧
  ∀ (neg : Bool) (m : Nat) (e : Int), ∃ y : ℚ, nearestEven (min (max (finValue neg m e) 0) 255 + 1 / 2) y ∧
    (F64.fin neg m e).toChannel = some (BitVec.ofNat 8 ⌊y⌋₊)

/-- The accumulator of GAUSS: from +0.0, the products in increasing i, over the window with edge replication
(42_convolution.md R320, R321, R323). -/
def gaussAccumulator (x : Inputs) (radius r c ch : Nat) : F64 :=
  (List.range ((2 * radius + 1) ^ 2)).foldl (fun acc i =>
    let rr := min (max ((r : Int) + (i / (2 * radius + 1) : Nat) - radius) 0) ((x.h : Int) - 1)
    let cc := min (max ((c : Int) + (i % (2 * radius + 1) : Nat) - radius) 0) ((x.w : Int) - 1)
    acc.add ((F64.ofBits (x.gwBits i)).mul (F64.ofNat ((x.px rr.toNat cc.toNat).ch ch).toNat))) (F64.fin false 0 0)

/-- GAUSS: the radius check, the first pixel in row-major order with a NaN channel, and otherwise every channel, with the
frame (42_convolution.md §3, R320 to R323). -/
def Obligations.GaussEvaluatesEveryPixel : Prop :=
  encode .gauss = 0x00000032 ∧
  ∀ s : State,
    let x := s.inputs
    let radius := x.ops.gaussR.toNat
    let nan (r c : Nat) := ∃ ch, ch < 3 ∧ gaussAccumulator x radius r c ch = .nan
    (radius > s.cfg.gaussRmax → exec .gauss s = .next (s.raise (.gaussRadius radius))) ∧
    (radius ≤ s.cfg.gaussRmax → ∀ r c, r < x.h → c < x.w → nan r c →
      (∀ r' c', r' < x.h → c' < x.w → r' * x.w + c' < r * x.w + c → ¬ nan r' c') →
      exec .gauss s = .next (s.raise (.nonfinite (r * x.w + c)))) ∧
    (radius ≤ s.cfg.gaussRmax → (∀ r c, r < x.h → c < x.w → ¬ nan r c) →
      ∃ t, exec .gauss s = .next t ∧ PixelFrame s t ∧
        ∀ r c, r < x.h → c < x.w → ∀ ch, ch < 3 →
          some ((t.pb.cell (r * x.w + c)).ch ch) = (gaussAccumulator x radius r c ch).toChannel)

/-- "R = 0, GW[0] = 1.0 leaves every pixel unchanged" (42_convolution.md R320, its example). -/
def Obligations.GaussUnitKernelIsTheIdentity : Prop :=
  ∀ s : State, s.engine = none → s.ops.gaussR = 0 → s.inputs.gwBits 0 = 0x3FF0000000000000 →
    ∃ t, exec .gauss s = .next t ∧ PixelFrame s t ∧ ∀ k, t.pb.cell k = s.pb.cell k

/-! ### PNG and CRC-32 -/

/-- 43_png_chunk.md R370: the CRC32 command, its corner case and its examples. -/
def Obligations.Crc32CommandSetsCrcOut : Prop :=
  encode .crc32 = 0x00000041 ∧
  (∀ s : State,
    let x := s.inputs
    (x.srcAddr + x.srcLen > s.cfg.bmBytes → exec .crc32 s = .next (s.raise (.bmBounds 0))) ∧
    (x.srcAddr + x.srcLen ≤ s.cfg.bmBytes → ∃ t, exec .crc32 s = .next t ∧ DoneFrame s t ∧ t.ops = s.ops ∧
      t.pb = s.pb ∧ t.bm = s.bm ∧
      t.res = { s.res with crcOut := crc32Of ((List.range x.srcLen).map fun k => bmByte x.bm (x.srcAddr + k)) })) ∧
  crc32Of [] = 0x00000000 ∧ crc32Of [0x49, 0x45, 0x4E, 0x44] = 0xAE426082 ∧
  crc32Of [0x31, 0x32, 0x33, 0x34, 0x35, 0x36, 0x37, 0x38, 0x39] = 0xCBF43926

/-- A change of one byte of a sequence, a flipped bit among others, always changes its CRC-32 (43_png_chunk.md R364 (h)). -/
def Obligations.CrcDetectsAChangedByte : Prop :=
  ∀ (before after : List Byte) (b b' : Byte), b ≠ b' →
    crc32Of (before ++ b :: after) ≠ crc32Of (before ++ b' :: after)

/-- A chunk of a PNG stream as its type and data (43_png_chunk.md R351). -/
structure Chunk where
  ty   : List Byte
  data : List Byte

/-- The four bytes of a number, most significant first. -/
def beBytes (v : Nat) : List Byte := [3, 2, 1, 0].map fun k => BitVec.ofNat 8 (v / 256 ^ k)

/-- The bytes of a chunk with the CRC `crc` (43_png_chunk.md R351). -/
def Chunk.bytesWith (c : Chunk) (crc : Word) : List Byte := beBytes c.data.length ++ c.ty ++ c.data ++ beBytes crc.toNat

/-- The CRC a chunk should have (43_png_chunk.md R357). -/
def Chunk.crc (c : Chunk) : Word := crc32Of (c.ty ++ c.data)

/-- The bytes of a chunk with its right CRC. -/
def Chunk.bytes (c : Chunk) : List Byte := c.bytesWith c.crc

/-- A chunk that may stand between IHDR and IEND: four letters, and not IEND (43_png_chunk.md R352, R360). -/
def Chunk.inner (c : Chunk) : Prop :=
  c.ty.length = 4 ∧ (∀ b ∈ c.ty, isLetter b = true) ∧ c.ty ≠ typeIend ∧ c.data.length < 2 ^ 32

/-- The 13 data bytes of an IHDR that R354 accepts, with width w and height h (43_png_chunk.md R353). -/
def ihdrChunk (w h : Word) : Chunk := ⟨typeIhdr, beBytes w.toNat ++ beBytes h.toNat ++ [8, 6, 0, 0, 0]⟩

/-- The source window holds these bytes first. -/
def sourceStarts (x : Inputs) (stream : List Byte) : Prop :=
  stream.length ≤ x.srcLen ∧ ∀ k, k < stream.length → x.src k = stream.getD k 0

/-- PNG_PARSE of a legal stream: an accepted IHDR, any further chunks with right CRCs, and IEND, with anything after it. The
IHDR registers and the concatenated IDAT bytes are written, and the frame holds (43_png_chunk.md §3, R360 to R364). -/
def Obligations.PngParseReadsALegalStream : Prop :=
  encode .pngParse = 0x00000040 ∧
  ∀ (s : State) (w h : Word) (chunks : List Chunk) (iendData : List Byte),
    let x := s.inputs
    let idat := (chunks.filter fun c => c.ty == typeIdat).flatMap Chunk.data
    x.srcAddr + x.srcLen ≤ s.cfg.bmBytes → x.dstAddr + x.dstCap ≤ s.cfg.bmBytes → ¬ x.overlap →
    (∀ c ∈ chunks, c.inner) → iendData.length < 2 ^ 32 →
    sourceStarts x (pngSignature ++ (ihdrChunk w h).bytes ++ chunks.flatMap Chunk.bytes
      ++ (Chunk.mk typeIend iendData).bytes) →
    (idat.length > x.dstCap → exec .pngParse s = .next (s.raise (.dstCap idat.length))) ∧
    (idat.length ≤ x.dstCap → ∃ t, exec .pngParse s = .next t ∧ OutputFrame idat.length s t ∧ t.ops = s.ops ∧
      t.res.ihdr = ⟨w, h, 0x608, 0⟩ ∧ ∀ k, k < idat.length → bmByte t.bm (x.dstAddr + k) = idat.getD k 0)

/-- The length field of the chunk at `pos`, most significant byte first (43_png_chunk.md R351). -/
abbrev chunkLength (x : Inputs) (pos : Nat) : Nat :=
  2 ^ 24 * (x.src pos).toNat + 2 ^ 16 * (x.src (pos + 1)).toNat + 2 ^ 8 * (x.src (pos + 2)).toNat + (x.src (pos + 3)).toNat

/-- The four type bytes of the chunk at `pos` are letters (43_png_chunk.md R352). -/
abbrev chunkTyped (x : Inputs) (pos : Nat) : Prop :=
  ∀ k, k < 4 → (0x41 ≤ (x.src (pos + 4 + k)).toNat ∧ (x.src (pos + 4 + k)).toNat ≤ 0x5A) ∨
    (0x61 ≤ (x.src (pos + 4 + k)).toNat ∧ (x.src (pos + 4 + k)).toNat ≤ 0x7A)

/-- The CRC field of the chunk at `pos` is the CRC-32 of its type and data (43_png_chunk.md R357). -/
abbrev chunkCrcMatches (x : Inputs) (pos : Nat) : Prop :=
  let crc := pos + 8 + chunkLength x pos
  x.src crc ++ x.src (crc + 1) ++ x.src (crc + 2) ++ x.src (crc + 3) =
    crc32Of ((List.range (4 + chunkLength x pos)).map fun k => x.src (pos + 4 + k))

/-- What stands before a chunk: the signature, and unless the chunk is the first, an accepted IHDR of width w and height h
and further chunks. -/
def pngBefore : Option (Word × Word × List Chunk) → List Byte
  | none => pngSignature
  | some (w, h, chunks) => pngSignature ++ (ihdrChunk w h).bytes ++ chunks.flatMap Chunk.bytes

/-- The checks of one chunk, the first of the stream (IHDR itself) or a later one of any type, in their order: length and
type missing, a type byte that is no letter, data or CRC missing, and a CRC that does not match, each with its information
value, and nothing is written (43_png_chunk.md §1 to §3, R352, R357, R360, R361, R364). -/
def Obligations.PngParseRejectsABadChunk : Prop :=
  ∀ (s : State) (before : Option (Word × Word × List Chunk)),
    let x := s.inputs
    let pos := (pngBefore before).length
    let next := pos + 12 + chunkLength x pos
    x.srcAddr + x.srcLen ≤ s.cfg.bmBytes → x.dstAddr + x.dstCap ≤ s.cfg.bmBytes → ¬ x.overlap →
    (∀ w h chunks, before = some (w, h, chunks) → ∀ c ∈ chunks, c.inner) → sourceStarts x (pngBefore before) →
    (x.srcLen < pos + 8 → exec .pngParse s = .next (s.raise (.pngTrunc (pos + 8)))) ∧
    (pos + 8 ≤ x.srcLen → ¬ chunkTyped x pos → exec .pngParse s = .next (s.raise (.pngType (pos + 4)))) ∧
    (pos + 8 ≤ x.srcLen → chunkTyped x pos → x.srcLen < next → exec .pngParse s = .next (s.raise (.pngTrunc next))) ∧
    (next ≤ x.srcLen → chunkTyped x pos → ¬ chunkCrcMatches x pos → exec .pngParse s = .next (s.raise (.pngCrc pos)))

/-- The checks PNG_PARSE makes before the first chunk, in their order, and those of the meaning of the first chunk once its
own checks pass: it must be IHDR with 13 bytes, and its five fixed fields are checked in order, each with its stream offset
(43_png_chunk.md §1 and §3, R350, R354, R360, R364; 20_memory.md R110, R113). -/
def Obligations.PngParseChecksWindowsSignatureAndIhdr : Prop :=
  ∀ s : State,
    let x := s.inputs
    let c1 := x.srcAddr + x.srcLen ≤ s.cfg.bmBytes
    let c2 := c1 ∧ x.dstAddr + x.dstCap ≤ s.cfg.bmBytes
    let share := x.srcLen > 0 ∧ x.dstCap > 0 ∧ x.srcAddr < x.dstAddr + x.dstCap ∧ x.dstAddr < x.srcAddr + x.srcLen
    let c3 := c2 ∧ ¬ share
    let c4 := c3 ∧ 8 ≤ x.srcLen
    let signed := ∀ k, k < 8 → x.src k = [137, 80, 78, 71, 13, 10, 26, 10].getD k 0
    let c5 := c4 ∧ signed ∧ 8 + 12 + chunkLength x 8 ≤ x.srcLen ∧ chunkTyped x 8 ∧ chunkCrcMatches x 8
    let isIhdr := (∀ k, k < 4 → x.src (12 + k) = [0x49, 0x48, 0x44, 0x52].getD k 0) ∧ chunkLength x 8 = 13
    let accepted (j : Nat) := x.src (24 + j) = [8, 6, 0, 0, 0].getD j 0
    (¬ c1 → exec .pngParse s = .next (s.raise (.bmBounds 0))) ∧
    (c1 → ¬ c2 → exec .pngParse s = .next (s.raise (.bmBounds 1))) ∧
    (c2 → share → exec .pngParse s = .next (s.raise .overlap)) ∧
    (c3 → x.srcLen < 8 → exec .pngParse s = .next (s.raise (.pngTrunc 8))) ∧
    (c4 → ¬ signed → exec .pngParse s = .next (s.raise .pngSig)) ∧
    (c5 → ¬ isIhdr → exec .pngParse s = .next (s.raise .pngNoIhdr)) ∧
    (c5 → isIhdr → ∀ j, j < 5 → ¬ accepted j → (∀ i, i < j → accepted i) →
      exec .pngParse s = .next (s.raise (.pngIhdrParam (24 + j))))

/-! ### Scanlines -/

/-- 44_scanline.md R402 and R403: the predictor of each filter type, with the Average sum formed without 8-bit wrap and
every result a byte value; and Paeth picks the candidate nearest to a + b - c, and prefers a, then b, else c, on a tie, with
the source's two worked examples. -/
def Obligations.PredictorsOfEveryType : Prop :=
  (∀ a b c : Nat, predictor 0 a b c = 0 ∧ predictor 1 a b c = a ∧ predictor 2 a b c = b ∧
    2 * predictor 3 a b c ≤ a + b ∧ a + b < 2 * predictor 3 a b c + 2 ∧ predictor 4 a b c = paeth a b c) ∧
  predictor 3 255 254 0 = 254 ∧
  (∀ t a b c : Nat, t ≤ 4 → a ≤ 255 → b ≤ 255 → c ≤ 255 → predictor t a b c ≤ 255) ∧
  (∀ a b c : Nat,
    let d (v : Nat) : Nat := ((a : Int) + b - c - v).natAbs
    (d a ≤ d b → d a ≤ d c → paeth a b c = a) ∧
    (¬ (d a ≤ d b ∧ d a ≤ d c) → d b ≤ d c → paeth a b c = b) ∧
    (¬ (d a ≤ d b ∧ d a ≤ d c) → ¬ d b ≤ d c → paeth a b c = c) ∧
    d (paeth a b c) ≤ d a ∧ d (paeth a b c) ≤ d b ∧ d (paeth a b c) ≤ d c) ∧
  (∀ a b c : Nat, a ≤ 255 → b ≤ 255 → c ≤ 255 → (-255 : Int) ≤ (a : Int) + b - c ∧ (a : Int) + b - c ≤ 510) ∧
  (∀ a : Nat, paeth a a a = a) ∧ paeth 10 10 0 = 10

/-- The raw byte x(i, j) of an image given by its pixels (44_scanline.md R400), and its prediction from the neighbours of
R401. -/
def rawOf (px : Nat → Nat → Pixel) (i j : Nat) : Byte := (px i (j / 3)).ch (j % 3)

/-- Pred(t, a, b, c) at (i, j), with missing neighbours 0 (44_scanline.md R401, R402). -/
def predOf (px : Nat → Nat → Pixel) (t i j : Nat) : Nat :=
  predictor t (if 3 ≤ j then (rawOf px i (j - 3)).toNat else 0) (if 1 ≤ i then (rawOf px (i - 1) j).toNat else 0)
    (if 1 ≤ i ∧ 3 ≤ j then (rawOf px (i - 1) (j - 3)).toNat else 0)

/-- SL_FILTER: its checks, every type byte and filtered byte, OUT_LEN, and the frame (44_scanline.md §3, R400 to R404,
R410). -/
def Obligations.FilterWritesEveryScanline : Prop :=
  (∀ t : Nat, t < 256 → (encode (.slFilter t)).toNat = 0x50 + 256 * t) ∧
  ∀ (t : Nat) (s : State),
    let x := s.inputs
    let n := x.h * (1 + 3 * x.w)
    (x.dstAddr + x.dstCap > s.cfg.bmBytes → exec (.slFilter t) s = .next (s.raise (.bmBounds 1))) ∧
    (x.dstAddr + x.dstCap ≤ s.cfg.bmBytes → t > 4 → exec (.slFilter t) s = .next (s.raise (.filterType t))) ∧
    (x.dstAddr + x.dstCap ≤ s.cfg.bmBytes → t ≤ 4 → n > x.dstCap →
      exec (.slFilter t) s = .next (s.raise (.dstCap n))) ∧
    (x.dstAddr + x.dstCap ≤ s.cfg.bmBytes → t ≤ 4 → n ≤ x.dstCap →
      ∃ u, exec (.slFilter t) s = .next u ∧ OutputFrame n s u ∧ u.ops = s.ops ∧ u.res.ihdr = s.res.ihdr ∧
        ∀ i, i < x.h →
          (bmByte u.bm (x.dstAddr + i * (1 + 3 * x.w))).toNat = t ∧
          ∀ j, j < 3 * x.w → ((bmByte u.bm (x.dstAddr + i * (1 + 3 * x.w) + 1 + j)).toNat : Int) =
            (((rawOf x.px i j).toNat : Int) - predOf x.px t i j) % 256)

/-- SL_DEFILTER: its checks in their order, the reconstruction of every byte from the bytes already reconstructed, and the
frame (44_scanline.md §3, R400 to R404, R411). -/
def Obligations.DefilterReconstructsEveryScanline : Prop :=
  encode .slDefilter = 0x00000051 ∧
  ∀ s : State,
    let x := s.inputs
    let need := x.dimH * (1 + 3 * x.dimW)
    let fits := x.dimH ≤ 2 ^ 31 - 1 ∧ x.dimW ≤ 2 ^ 31 - 1 ∧ x.dimH * x.dimW ≤ s.cfg.pbCells
    let ty (i : Nat) := (x.src (i * (1 + 3 * x.dimW))).toNat
    let c1 := x.srcAddr + x.srcLen ≤ s.cfg.bmBytes
    (¬ c1 → exec .slDefilter s = .next (s.raise (.bmBounds 0))) ∧
    (c1 → ¬ fits → exec .slDefilter s = .next (s.raise .capacity)) ∧
    (c1 → fits → x.srcLen < need → exec .slDefilter s = .next (s.raise (.slTrunc need))) ∧
    (c1 → fits → need ≤ x.srcLen → ∀ i, i < x.dimH → ty i > 4 → (∀ k, k < i → ty k ≤ 4) →
      exec .slDefilter s = .next (s.raise (.filterType i))) ∧
    (c1 → fits → need ≤ x.srcLen → (∀ i, i < x.dimH → ty i ≤ 4) →
      ∃ t, exec .slDefilter s = .next t ∧ ImageFrame s t ∧
        t.pb.h = x.ops.dimH ∧ t.pb.w = x.ops.dimW ∧ t.pb.offset = 54 ∧
        (∀ i j, i < x.dimH → j < 3 * x.dimW →
          (rawOf t.pb.px i j).toNat =
            ((x.src (i * (1 + 3 * x.dimW) + 1 + j)).toNat + predOf t.pb.px (ty i) i j) % 256) ∧
        ∀ k, x.dimH * x.dimW ≤ k → t.pb.cell k = s.pb.cell k)

/-- 44_scanline.md R412 (f): SL_DEFILTER applied to the output of SL_FILTER.t, with DIM_H = H and DIM_W = W and any other PB,
reproduces the image exactly, for every t in 0..4 and every image; the cells past it stay those of that PB. -/
def Obligations.FilterThenDefilterIsTheIdentity : Prop :=
  ∀ (s t : State) (f : Nat) (pb : PixelBuffer), f ≤ 4 → s.Inv → s.engine = none →
    s.inputs.dstAddr + s.inputs.dstCap ≤ s.cfg.bmBytes → s.inputs.h * (1 + 3 * s.inputs.w) ≤ s.inputs.dstCap →
    exec (.slFilter f) s = .next t →
    ∃ u, exec .slDefilter (withSourceAndDims s.ops.dstAddr t.res.outLen s.pb.h s.pb.w { t with pb := pb }) = .next u ∧
      u.status.err = t.status.err ∧ u.pb.h = s.pb.h ∧ u.pb.w = s.pb.w ∧
      (∀ k, k < s.pb.h.toNat * s.pb.w.toNat → u.pb.cell k = s.pb.cell k) ∧
      ∀ k, s.pb.h.toNat * s.pb.w.toNat ≤ k → u.pb.cell k = pb.cell k

/-! ### Adam7 -/

/-- The seven passes partition every image (45_adam7.md §1, R450 to R454): the numbers of the pass table and of the lookup
table, each pixel is a point of exactly the pass that the lookup table names, the reduced dimensions hold H*W pixels
together, and each pass starts in the stream where the one before it ends. -/
def Obligations.PassesPartitionEveryImage : Prop :=
  ((List.range 7).map fun q => passSteps (q + 1)) =
    [⟨0, 0, 8, 8⟩, ⟨0, 4, 8, 8⟩, ⟨4, 0, 8, 4⟩, ⟨0, 2, 4, 4⟩, ⟨2, 0, 4, 2⟩, ⟨0, 1, 2, 2⟩, ⟨1, 0, 2, 1⟩] ∧
  (∀ r c : Nat, passOf r c = passOf (r % 8) (c % 8)) ∧
  ((List.range 8).map fun r => (List.range 8).map fun c => passOf r c) =
    [[1, 6, 4, 6, 2, 6, 4, 6], [7, 7, 7, 7, 7, 7, 7, 7], [5, 6, 5, 6, 5, 6, 5, 6], [7, 7, 7, 7, 7, 7, 7, 7],
      [3, 6, 4, 6, 3, 6, 4, 6], [7, 7, 7, 7, 7, 7, 7, 7], [5, 6, 5, 6, 5, 6, 5, 6], [7, 7, 7, 7, 7, 7, 7, 7]] ∧
  (∀ h w : Nat, passOffset h w 1 = 0) ∧
  (∀ h w p : Nat, 1 ≤ p → p ≤ 7 → passOffset h w (p + 1) = passOffset h w p + 3 * (passH p h * passW p w)) ∧
  (∀ r c p : Nat, 1 ≤ p → p ≤ 7 →
    ((∃ u v, r = (passSteps p).rs + u * (passSteps p).dr ∧ c = (passSteps p).cs + v * (passSteps p).dc) ↔ passOf r c = p)) ∧
  (∀ r c : Nat, 1 ≤ passOf r c ∧ passOf r c ≤ 7) ∧
  (∀ h w p u : Nat, 1 ≤ p → p ≤ 7 → (u < passH p h ↔ (passSteps p).rs + u * (passSteps p).dr < h) ∧
    (u < passW p w ↔ (passSteps p).cs + u * (passSteps p).dc < w)) ∧
  ∀ h w : Nat, ((List.range 7).map fun q => passH (q + 1) h * passW (q + 1) w).sum = h * w

/-- A7_SPLIT: its checks, every byte of the seven sub-images, the fourteen A7 registers, OUT_LEN, and the frame
(45_adam7.md §2, R454, R460). -/
def Obligations.SplitWritesTheSubImages : Prop :=
  encode .a7Split = 0x00000060 ∧
  ∀ s : State,
    let x := s.inputs
    let n := 3 * x.h * x.w
    (x.dstAddr + x.dstCap > s.cfg.bmBytes → exec .a7Split s = .next (s.raise (.bmBounds 1))) ∧
    (x.dstAddr + x.dstCap ≤ s.cfg.bmBytes → n > x.dstCap → exec .a7Split s = .next (s.raise (.dstCap n))) ∧
    (x.dstAddr + x.dstCap ≤ s.cfg.bmBytes → n ≤ x.dstCap →
      ∃ t, exec .a7Split s = .next t ∧ OutputFrame n s t ∧ t.res.ihdr = s.res.ihdr ∧
        t.ops = { s.ops with a7ph := t.ops.a7ph, a7pw := t.ops.a7pw } ∧
        (∀ q : Fin 7, t.ops.a7ph.get q = BitVec.ofNat 32 (passH (q.val + 1) x.h) ∧
          t.ops.a7pw.get q = BitVec.ofNat 32 (passW (q.val + 1) x.w)) ∧
        ∀ p u v, 1 ≤ p → p ≤ 7 → u < passH p x.h → v < passW p x.w →
          let px := x.px ((passSteps p).rs + u * (passSteps p).dr) ((passSteps p).cs + v * (passSteps p).dc)
          let k := x.dstAddr + passOffset x.h x.w p + 3 * (u * passW p x.w + v)
          bmByte t.bm k = px.r ∧ bmByte t.bm (k + 1) = px.g ∧ bmByte t.bm (k + 2) = px.b)

/-- A7_MERGE.n: its checks in their order, the pixels of passes 1..n, zero for the later ones, and the frame (45_adam7.md
§2, R462, R463). -/
def Obligations.MergeBuildsFromThePasses : Prop :=
  (∀ n : Nat, n < 256 → (encode (.a7Merge n)).toNat = 0x61 + 256 * n) ∧
  ∀ (n : Nat) (s : State),
    let x := s.inputs
    let fits := x.dimH ≤ 2 ^ 31 - 1 ∧ x.dimW ≤ 2 ^ 31 - 1 ∧ x.dimH * x.dimW ≤ s.cfg.pbCells
    let dimOk (p : Nat) := x.a7ph p = passH p x.dimH ∧ x.a7pw p = passW p x.dimW
    let need := passOffset x.dimH x.dimW (n + 1)
    let c1 := x.srcAddr + x.srcLen ≤ s.cfg.bmBytes
    let c2 := c1 ∧ 1 ≤ n ∧ n ≤ 7
    let c3 := c2 ∧ fits
    let c4 := c3 ∧ ∀ p, 1 ≤ p → p ≤ n → dimOk p
    (¬ c1 → exec (.a7Merge n) s = .next (s.raise (.bmBounds 0))) ∧
    (c1 → ¬ c2 → exec (.a7Merge n) s = .next (s.raise (.passCount n))) ∧
    (c2 → ¬ fits → exec (.a7Merge n) s = .next (s.raise .capacity)) ∧
    (c3 → ∀ p, 1 ≤ p → p ≤ n → ¬ dimOk p → (∀ q, 1 ≤ q → q < p → dimOk q) →
      exec (.a7Merge n) s = .next (s.raise (.a7Dim p))) ∧
    (c4 → x.srcLen < need → exec (.a7Merge n) s = .next (s.raise (.a7Trunc need))) ∧
    (c4 → need ≤ x.srcLen → ∃ t, exec (.a7Merge n) s = .next t ∧ ImageFrame s t ∧
      t.pb.h = x.ops.dimH ∧ t.pb.w = x.ops.dimW ∧ t.pb.offset = 54 ∧
      (∀ p u v, 1 ≤ p → p ≤ 7 → u < passH p x.dimH → v < passW p x.dimW →
        let k := passOffset x.dimH x.dimW p + 3 * (u * passW p x.dimW + v)
        t.pb.px ((passSteps p).rs + u * (passSteps p).dr) ((passSteps p).cs + v * (passSteps p).dc) =
          if p ≤ n then ⟨x.src k, x.src (k + 1), x.src (k + 2)⟩ else ⟨0, 0, 0⟩) ∧
      ∀ k, x.dimH * x.dimW ≤ k → t.pb.cell k = s.pb.cell k)

/-- 45_adam7.md R463 (d): A7_SPLIT, then A7_MERGE.n of the bytes it wrote into any other PB, gives exactly the pixels of
passes 1..n and zero for the rest; A7_MERGE.7 is the identity; the cells past the image stay those of that PB. -/
def Obligations.SplitThenMergeKeepsThePasses : Prop :=
  ∀ (s t : State) (n : Nat) (pb : PixelBuffer), 1 ≤ n → n ≤ 7 → s.Inv → s.engine = none →
    s.inputs.dstAddr + s.inputs.dstCap ≤ s.cfg.bmBytes → 3 * s.inputs.h * s.inputs.w ≤ s.inputs.dstCap →
    exec .a7Split s = .next t →
    ∃ u, exec (.a7Merge n) (withSourceAndDims s.ops.dstAddr t.res.outLen s.pb.h s.pb.w { t with pb := pb }) = .next u ∧
      u.status.err = t.status.err ∧ u.pb.h = s.pb.h ∧ u.pb.w = s.pb.w ∧
      (∀ r c, r < s.pb.h.toNat → c < s.pb.w.toNat →
        u.pb.px r c = if passOf r c ≤ n then s.pb.px r c else ⟨0, 0, 0⟩) ∧
      ∀ k, s.pb.h.toNat * s.pb.w.toNat ≤ k → u.pb.cell k = pb.cell k
end

