-- ==== Sys2Proof/Laws/Memory.lean ====
section
/-! SUPPORT. What the memory operations of Machine/Ops.lean do: the content of every cell after a write, a forget and a
power-up, and that each of them keeps the canonical form and the bound on the addresses. -/

namespace Sys2Proof.Machine

variable {α : Type}

theorem lookupCell_append (a : Nat) (l₁ l₂ : List (Nat × α)) :
    lookupCell a (l₁ ++ l₂) = (lookupCell a l₁).or (lookupCell a l₂) := by
  induction l₁ with
  | nil => simp [lookupCell]
  | cons p l ih => by_cases h : p.1 = a <;> simp [lookupCell, h, ih]

theorem lookupCell_filter (keep : Nat → Bool) (a : Nat) (l : List (Nat × α)) :
    lookupCell a (l.filter fun p => keep p.1) = if keep a then lookupCell a l else none := by
  induction l with
  | nil => simp [lookupCell]
  | cons p l ih =>
    by_cases h : p.1 = a
    · subst h
      cases hk : keep p.1 <;> simp [List.filter, lookupCell, hk, ih]
    · cases hk : keep p.1 <;> simp [List.filter, lookupCell, hk, h, ih]

theorem lookupCell_cellsFrom (a x : Nat) (vs : List α) :
    lookupCell x (cellsFrom a vs) = if a ≤ x then vs[x - a]? else none := by
  induction vs generalizing a with
  | nil => simp [cellsFrom, lookupCell]
  | cons v vs ih =>
    by_cases h : a = x
    · simp [cellsFrom, lookupCell, h]
    · by_cases h' : a ≤ x
      · have h1 : a + 1 ≤ x := by omega
        have h2 : x - a = x - (a + 1) + 1 := by omega
        simp [cellsFrom, lookupCell, h, h', h1, ih, h2]
      · have h1 : ¬ a + 1 ≤ x := by omega
        simp [cellsFrom, lookupCell, h, h', h1, ih]

/-- The content of every cell after a write: the written contents inside, the old content outside. -/
theorem Memory.get?_write (m : Memory α) (a x : Nat) (vs : List α) :
    (m.write a vs).get? x = if a ≤ x ∧ x < a + vs.length then vs[x - a]? else m.get? x := by
  have h1 := lookupCell_filter (fun k => decide (k < a)) x m.cells
  have h2 := lookupCell_filter (fun k => decide (a + vs.length ≤ k)) x m.cells
  simp only [decide_eq_true_eq] at h1 h2
  simp only [Memory.get?, Memory.write, lookupCell_append, lookupCell_cellsFrom, h1, h2]
  by_cases hl : x < a
  · have : ¬ a ≤ x := by omega
    have : ¬ a + vs.length ≤ x := by omega
    simp [*]
  · have hx : a ≤ x := by omega
    by_cases hr : x < a + vs.length
    · have : ¬ a + vs.length ≤ x := by omega
      have : x - a < vs.length := by omega
      simp [*]
    · have : a + vs.length ≤ x := by omega
      have : vs.length ≤ x - a := by omega
      simp [*]

theorem Memory.get?_write_of_lt (m : Memory α) {a x : Nat} (vs : List α) (h : x < a) :
    (m.write a vs).get? x = m.get? x := by
  rw [Memory.get?_write, if_neg (by omega)]

theorem Memory.get?_write_of_ge (m : Memory α) {a x : Nat} (vs : List α) (h : a + vs.length ≤ x) :
    (m.write a vs).get? x = m.get? x := by
  rw [Memory.get?_write, if_neg (by omega)]

theorem Memory.get?_write_inside (m : Memory α) {a k : Nat} (vs : List α) (h : k < vs.length) :
    (m.write a vs).get? (a + k) = some vs[k] := by
  rw [Memory.get?_write, if_pos (by omega)]
  simp [h]

@[simp] theorem Memory.write_epoch (m : Memory α) (a : Nat) (vs : List α) : (m.write a vs).epoch = m.epoch := rfl

/-- A read of a written cell gives what was written. -/
theorem Memory.read_write_inside (free : Nat → Nat → α) (m : Memory α) {a k : Nat} (vs : List α)
    (h : k < vs.length) : (m.write a vs).read free (a + k) = vs[k] := by
  rw [Memory.read, Memory.get?_write_inside m vs h, Option.getD_some]

/-- A read outside the written cells gives what it gave before. -/
theorem Memory.read_write_outside (free : Nat → Nat → α) (m : Memory α) {a x : Nat} (vs : List α)
    (h : x < a ∨ a + vs.length ≤ x) : (m.write a vs).read free x = m.read free x := by
  rw [Memory.read, Memory.get?_write, if_neg (by omega), Memory.write_epoch, Memory.read]

theorem Memory.get?_forget (m : Memory α) (n x : Nat) :
    (m.forget n).get? x = if x < n then none else m.get? x := by
  have h := lookupCell_filter (fun k => decide (n ≤ k)) x m.cells
  simp only [decide_eq_true_eq] at h
  simp only [Memory.get?, Memory.forget, h]
  by_cases hx : x < n
  · have : ¬ n ≤ x := by omega
    simp [*]
  · have : n ≤ x := by omega
    simp [*]

@[simp] theorem Memory.get?_powerUp (m : Memory α) (x : Nat) : m.powerUp.get? x = none := rfl

theorem mem_cellsFrom {a : Nat} {vs : List α} {p : Nat × α} (h : p ∈ cellsFrom a vs) :
    a ≤ p.1 ∧ p.1 < a + vs.length := by
  induction vs generalizing a with
  | nil => simp [cellsFrom] at h
  | cons v vs ih =>
    rcases List.mem_cons.1 h with rfl | h
    · simp
    · have := ih h
      simp only [List.length_cons]
      omega

theorem cellsFrom_pairwise (a : Nat) (vs : List α) : (cellsFrom a vs).Pairwise fun p q => p.1 < q.1 := by
  induction vs generalizing a with
  | nil => exact List.Pairwise.nil
  | cons v vs ih =>
    exact List.Pairwise.cons (fun p hp => by have := mem_cellsFrom hp; simp only; omega) (ih _)

/-- A write keeps the canonical form. -/
theorem Memory.write_wf {m : Memory α} (hm : m.wf) (a : Nat) (vs : List α) : (m.write a vs).wf := by
  refine List.pairwise_append.2 ⟨List.pairwise_append.2
    ⟨hm.sublist List.filter_sublist, cellsFrom_pairwise a vs, ?_⟩, hm.sublist List.filter_sublist, ?_⟩
  · intro p hp q hq
    have h1 : p.1 < a := by simpa using (List.mem_filter.1 hp).2
    have h2 := mem_cellsFrom hq
    omega
  · intro p hp q hq
    have h2 : a + vs.length ≤ q.1 := by simpa using (List.mem_filter.1 hq).2
    rcases List.mem_append.1 hp with hp | hp
    · have h1 : p.1 < a := by simpa using (List.mem_filter.1 hp).2
      omega
    · have h1 := mem_cellsFrom hp
      omega

theorem Memory.forget_wf {m : Memory α} (hm : m.wf) (n : Nat) : (m.forget n).wf := hm.sublist List.filter_sublist

theorem Memory.powerUp_wf (m : Memory α) : m.powerUp.wf := List.Pairwise.nil

/-- A write below `n` keeps the addresses below `n`. -/
theorem Memory.write_below {m : Memory α} {n a : Nat} {vs : List α} (hm : m.below n) (h : a + vs.length ≤ n) :
    (m.write a vs).below n := by
  intro p hp
  rcases List.mem_append.1 hp with hp | hp
  · rcases List.mem_append.1 hp with hp | hp
    · exact hm p (List.mem_filter.1 hp).1
    · have := mem_cellsFrom hp
      omega
  · exact hm p (List.mem_filter.1 hp).1

theorem Memory.forget_below {m : Memory α} {n : Nat} (hm : m.below n) (k : Nat) : (m.forget k).below n :=
  fun p hp => hm p (List.mem_filter.1 hp).1

theorem Memory.powerUp_below (m : Memory α) (n : Nat) : m.powerUp.below n := by simp [Memory.below, Memory.powerUp]

/-- The write of no contents leaves every cell as it is. -/
@[simp] theorem Memory.read_write_nil (free : Nat → Nat → α) (m : Memory α) (a x : Nat) :
    (m.write a []).read free x = m.read free x :=
  m.read_write_outside free [] (by simp only [List.length_nil]; omega)

end Sys2Proof.Machine
end

