-- ==== Sys2Proof/Laws/State.lean ====
section
/-! SUPPORT. One lemma per field of State and update of it, each true by rfl, so that no later proof unfolds a record
update. -/

namespace Sys2Proof.Machine

variable (s : State)

/-! ### State.finish -/

@[simp] theorem State.finish_cfg : s.finish.cfg = s.cfg := rfl
@[simp] theorem State.finish_ie : s.finish.ie = s.ie := rfl
@[simp] theorem State.finish_status : s.finish.status = s.status.completed := rfl
@[simp] theorem State.finish_cmd : s.finish.cmd = s.cmd := rfl
@[simp] theorem State.finish_ops : s.finish.ops = s.ops := rfl
@[simp] theorem State.finish_pixRow : s.finish.pixRow = s.pixRow := rfl
@[simp] theorem State.finish_pixCol : s.finish.pixCol = s.pixCol := rfl
@[simp] theorem State.finish_res : s.finish.res = s.res := rfl
@[simp] theorem State.finish_pb : s.finish.pb = s.pb := rfl
@[simp] theorem State.finish_bm : s.finish.bm = s.bm := rfl
@[simp] theorem State.finish_gw : s.finish.gw = s.gw := rfl
@[simp] theorem State.finish_engine : s.finish.engine = none := rfl
@[simp] theorem State.finish_host : s.finish.host = s.host := rfl
@[simp] theorem State.finish_busData : s.finish.busData = s.busData := rfl
@[simp] theorem State.finish_draws : s.finish.draws = s.draws := rfl

/-! ### State.raise -/

@[simp] theorem State.raise_cfg (e : CmdError) : (s.raise e).cfg = s.cfg := rfl
@[simp] theorem State.raise_ie (e : CmdError) : (s.raise e).ie = s.ie := rfl
@[simp] theorem State.raise_status (e : CmdError) : (s.raise e).status = s.status.failed e := rfl
@[simp] theorem State.raise_cmd (e : CmdError) : (s.raise e).cmd = s.cmd := rfl
@[simp] theorem State.raise_ops (e : CmdError) : (s.raise e).ops = s.ops := rfl
@[simp] theorem State.raise_pixRow (e : CmdError) : (s.raise e).pixRow = s.pixRow := rfl
@[simp] theorem State.raise_pixCol (e : CmdError) : (s.raise e).pixCol = s.pixCol := rfl
@[simp] theorem State.raise_res (e : CmdError) : (s.raise e).res = s.res := rfl
@[simp] theorem State.raise_pb (e : CmdError) : (s.raise e).pb = s.pb := rfl
@[simp] theorem State.raise_bm (e : CmdError) : (s.raise e).bm = s.bm := rfl
@[simp] theorem State.raise_gw (e : CmdError) : (s.raise e).gw = s.gw := rfl
@[simp] theorem State.raise_engine (e : CmdError) : (s.raise e).engine = none := rfl
@[simp] theorem State.raise_host (e : CmdError) : (s.raise e).host = s.host := rfl
@[simp] theorem State.raise_busData (e : CmdError) : (s.raise e).busData = s.busData := rfl
@[simp] theorem State.raise_draws (e : CmdError) : (s.raise e).draws = s.draws := rfl

/-! ### State.paint -/

@[simp] theorem State.paint_cfg (px : List Pixel) : (s.paint px).cfg = s.cfg := rfl
@[simp] theorem State.paint_ie (px : List Pixel) : (s.paint px).ie = s.ie := rfl
@[simp] theorem State.paint_status (px : List Pixel) : (s.paint px).status = s.status := rfl
@[simp] theorem State.paint_cmd (px : List Pixel) : (s.paint px).cmd = s.cmd := rfl
@[simp] theorem State.paint_ops (px : List Pixel) : (s.paint px).ops = s.ops := rfl
@[simp] theorem State.paint_pixRow (px : List Pixel) : (s.paint px).pixRow = s.pixRow := rfl
@[simp] theorem State.paint_pixCol (px : List Pixel) : (s.paint px).pixCol = s.pixCol := rfl
@[simp] theorem State.paint_res (px : List Pixel) : (s.paint px).res = s.res := rfl
@[simp] theorem State.paint_pb (px : List Pixel) : (s.paint px).pb = { s.pb with cells := s.pb.cells.write 0 px } := rfl
@[simp] theorem State.paint_bm (px : List Pixel) : (s.paint px).bm = s.bm := rfl
@[simp] theorem State.paint_gw (px : List Pixel) : (s.paint px).gw = s.gw := rfl
@[simp] theorem State.paint_engine (px : List Pixel) : (s.paint px).engine = s.engine := rfl
@[simp] theorem State.paint_host (px : List Pixel) : (s.paint px).host = s.host := rfl
@[simp] theorem State.paint_busData (px : List Pixel) : (s.paint px).busData = s.busData := rfl
@[simp] theorem State.paint_draws (px : List Pixel) : (s.paint px).draws = s.draws := rfl

/-! ### State.buildImage -/

@[simp] theorem State.buildImage_cfg (h w : Nat) (o : Word) (px : List Pixel) :
    (s.buildImage h w o px).cfg = s.cfg := rfl
@[simp] theorem State.buildImage_ie (h w : Nat) (o : Word) (px : List Pixel) : (s.buildImage h w o px).ie = s.ie := rfl
@[simp] theorem State.buildImage_status (h w : Nat) (o : Word) (px : List Pixel) :
    (s.buildImage h w o px).status = s.status := rfl
@[simp] theorem State.buildImage_cmd (h w : Nat) (o : Word) (px : List Pixel) :
    (s.buildImage h w o px).cmd = s.cmd := rfl
@[simp] theorem State.buildImage_ops (h w : Nat) (o : Word) (px : List Pixel) :
    (s.buildImage h w o px).ops = s.ops := rfl
@[simp] theorem State.buildImage_pixRow (h w : Nat) (o : Word) (px : List Pixel) :
    (s.buildImage h w o px).pixRow = s.pixRow := rfl
@[simp] theorem State.buildImage_pixCol (h w : Nat) (o : Word) (px : List Pixel) :
    (s.buildImage h w o px).pixCol = s.pixCol := rfl
@[simp] theorem State.buildImage_res (h w : Nat) (o : Word) (px : List Pixel) :
    (s.buildImage h w o px).res = s.res := rfl
@[simp] theorem State.buildImage_pb (h w : Nat) (o : Word) (px : List Pixel) :
    (s.buildImage h w o px).pb = ⟨BitVec.ofNat 32 h, BitVec.ofNat 32 w, o, s.pb.cells.write 0 px⟩ := rfl
@[simp] theorem State.buildImage_bm (h w : Nat) (o : Word) (px : List Pixel) : (s.buildImage h w o px).bm = s.bm := rfl
@[simp] theorem State.buildImage_gw (h w : Nat) (o : Word) (px : List Pixel) : (s.buildImage h w o px).gw = s.gw := rfl
@[simp] theorem State.buildImage_engine (h w : Nat) (o : Word) (px : List Pixel) :
    (s.buildImage h w o px).engine = s.engine := rfl
@[simp] theorem State.buildImage_host (h w : Nat) (o : Word) (px : List Pixel) :
    (s.buildImage h w o px).host = s.host := rfl
@[simp] theorem State.buildImage_busData (h w : Nat) (o : Word) (px : List Pixel) :
    (s.buildImage h w o px).busData = s.busData := rfl
@[simp] theorem State.buildImage_draws (h w : Nat) (o : Word) (px : List Pixel) :
    (s.buildImage h w o px).draws = s.draws := rfl

/-! ### State.emit -/

@[simp] theorem State.emit_cfg (d n : Nat) (out : List Byte) : (s.emit d n out).cfg = s.cfg := rfl
@[simp] theorem State.emit_ie (d n : Nat) (out : List Byte) : (s.emit d n out).ie = s.ie := rfl
@[simp] theorem State.emit_status (d n : Nat) (out : List Byte) : (s.emit d n out).status = s.status := rfl
@[simp] theorem State.emit_cmd (d n : Nat) (out : List Byte) : (s.emit d n out).cmd = s.cmd := rfl
@[simp] theorem State.emit_ops (d n : Nat) (out : List Byte) : (s.emit d n out).ops = s.ops := rfl
@[simp] theorem State.emit_pixRow (d n : Nat) (out : List Byte) : (s.emit d n out).pixRow = s.pixRow := rfl
@[simp] theorem State.emit_pixCol (d n : Nat) (out : List Byte) : (s.emit d n out).pixCol = s.pixCol := rfl
@[simp] theorem State.emit_res (d n : Nat) (out : List Byte) :
    (s.emit d n out).res = { s.res with outLen := BitVec.ofNat 32 n } := rfl
@[simp] theorem State.emit_pb (d n : Nat) (out : List Byte) : (s.emit d n out).pb = s.pb := rfl
@[simp] theorem State.emit_bm (d n : Nat) (out : List Byte) : (s.emit d n out).bm = s.bm.write d out := rfl
@[simp] theorem State.emit_gw (d n : Nat) (out : List Byte) : (s.emit d n out).gw = s.gw := rfl
@[simp] theorem State.emit_engine (d n : Nat) (out : List Byte) : (s.emit d n out).engine = s.engine := rfl
@[simp] theorem State.emit_host (d n : Nat) (out : List Byte) : (s.emit d n out).host = s.host := rfl
@[simp] theorem State.emit_busData (d n : Nat) (out : List Byte) : (s.emit d n out).busData = s.busData := rfl
@[simp] theorem State.emit_draws (d n : Nat) (out : List Byte) : (s.emit d n out).draws = s.draws := rfl

/-! ### State.start -/

@[simp] theorem State.start_cfg (w : Word) (d : Nat) : (s.start w d).cfg = s.cfg := rfl
@[simp] theorem State.start_ie (w : Word) (d : Nat) : (s.start w d).ie = s.ie := rfl
@[simp] theorem State.start_status (w : Word) (d : Nat) : (s.start w d).status = s.status.accepted := rfl
@[simp] theorem State.start_cmd (w : Word) (d : Nat) : (s.start w d).cmd = w := rfl
@[simp] theorem State.start_ops (w : Word) (d : Nat) : (s.start w d).ops = s.ops := rfl
@[simp] theorem State.start_pixRow (w : Word) (d : Nat) : (s.start w d).pixRow = s.pixRow := rfl
@[simp] theorem State.start_pixCol (w : Word) (d : Nat) : (s.start w d).pixCol = s.pixCol := rfl
@[simp] theorem State.start_res (w : Word) (d : Nat) : (s.start w d).res = s.res := rfl
@[simp] theorem State.start_pb (w : Word) (d : Nat) : (s.start w d).pb = s.pb := rfl
@[simp] theorem State.start_bm (w : Word) (d : Nat) : (s.start w d).bm = s.bm := rfl
@[simp] theorem State.start_gw (w : Word) (d : Nat) : (s.start w d).gw = s.gw := rfl
@[simp] theorem State.start_engine (w : Word) (d : Nat) : (s.start w d).engine = some ⟨w, s.sample, d⟩ := rfl
@[simp] theorem State.start_host (w : Word) (d : Nat) : (s.start w d).host = s.host := rfl
@[simp] theorem State.start_busData (w : Word) (d : Nat) : (s.start w d).busData = s.busData := rfl
@[simp] theorem State.start_draws (w : Word) (d : Nat) : (s.start w d).draws = s.draws := rfl

/-! ### State.accept -/

@[simp] theorem State.accept_cfg (w : Word) : (s.accept w).cfg = s.cfg := rfl
@[simp] theorem State.accept_ie (w : Word) : (s.accept w).ie = s.ie := rfl
@[simp] theorem State.accept_status (w : Word) : (s.accept w).status = s.status.accepted := rfl
@[simp] theorem State.accept_cmd (w : Word) : (s.accept w).cmd = w := rfl
@[simp] theorem State.accept_ops (w : Word) : (s.accept w).ops = s.ops := rfl
@[simp] theorem State.accept_pixRow (w : Word) : (s.accept w).pixRow = s.pixRow := rfl
@[simp] theorem State.accept_pixCol (w : Word) : (s.accept w).pixCol = s.pixCol := rfl
@[simp] theorem State.accept_res (w : Word) : (s.accept w).res = s.res := rfl
@[simp] theorem State.accept_pb (w : Word) : (s.accept w).pb = s.pb := rfl
@[simp] theorem State.accept_bm (w : Word) : (s.accept w).bm = s.bm := rfl
@[simp] theorem State.accept_gw (w : Word) : (s.accept w).gw = s.gw := rfl
@[simp] theorem State.accept_engine (w : Word) : (s.accept w).engine = some ⟨w, s.sample, Config.latency s.draws⟩ := rfl
@[simp] theorem State.accept_host (w : Word) : (s.accept w).host = s.host := rfl
@[simp] theorem State.accept_busData (w : Word) : (s.accept w).busData = s.busData := rfl
@[simp] theorem State.accept_draws (w : Word) : (s.accept w).draws = s.draws + 1 := rfl

/-! ### State.setBuserr -/

@[simp] theorem State.setBuserr_cfg : s.setBuserr.cfg = s.cfg := rfl
@[simp] theorem State.setBuserr_ie : s.setBuserr.ie = s.ie := rfl
@[simp] theorem State.setBuserr_status : s.setBuserr.status = { s.status with buserr := true } := rfl
@[simp] theorem State.setBuserr_cmd : s.setBuserr.cmd = s.cmd := rfl
@[simp] theorem State.setBuserr_ops : s.setBuserr.ops = s.ops := rfl
@[simp] theorem State.setBuserr_pixRow : s.setBuserr.pixRow = s.pixRow := rfl
@[simp] theorem State.setBuserr_pixCol : s.setBuserr.pixCol = s.pixCol := rfl
@[simp] theorem State.setBuserr_res : s.setBuserr.res = s.res := rfl
@[simp] theorem State.setBuserr_pb : s.setBuserr.pb = s.pb := rfl
@[simp] theorem State.setBuserr_bm : s.setBuserr.bm = s.bm := rfl
@[simp] theorem State.setBuserr_gw : s.setBuserr.gw = s.gw := rfl
@[simp] theorem State.setBuserr_engine : s.setBuserr.engine = s.engine := rfl
@[simp] theorem State.setBuserr_host : s.setBuserr.host = s.host := rfl
@[simp] theorem State.setBuserr_busData : s.setBuserr.busData = s.busData := rfl
@[simp] theorem State.setBuserr_draws : s.setBuserr.draws = s.draws := rfl

/-! ### State.setHaz -/

@[simp] theorem State.setHaz_cfg : s.setHaz.cfg = s.cfg := rfl
@[simp] theorem State.setHaz_ie : s.setHaz.ie = s.ie := rfl
@[simp] theorem State.setHaz_status : s.setHaz.status = { s.status with haz := true } := rfl
@[simp] theorem State.setHaz_cmd : s.setHaz.cmd = s.cmd := rfl
@[simp] theorem State.setHaz_ops : s.setHaz.ops = s.ops := rfl
@[simp] theorem State.setHaz_pixRow : s.setHaz.pixRow = s.pixRow := rfl
@[simp] theorem State.setHaz_pixCol : s.setHaz.pixCol = s.pixCol := rfl
@[simp] theorem State.setHaz_res : s.setHaz.res = s.res := rfl
@[simp] theorem State.setHaz_pb : s.setHaz.pb = s.pb := rfl
@[simp] theorem State.setHaz_bm : s.setHaz.bm = s.bm := rfl
@[simp] theorem State.setHaz_gw : s.setHaz.gw = s.gw := rfl
@[simp] theorem State.setHaz_engine : s.setHaz.engine = s.engine := rfl
@[simp] theorem State.setHaz_host : s.setHaz.host = s.host := rfl
@[simp] theorem State.setHaz_busData : s.setHaz.busData = s.busData := rfl
@[simp] theorem State.setHaz_draws : s.setHaz.draws = s.draws := rfl

/-! ### State.setPixerr -/

@[simp] theorem State.setPixerr_cfg : s.setPixerr.cfg = s.cfg := rfl
@[simp] theorem State.setPixerr_ie : s.setPixerr.ie = s.ie := rfl
@[simp] theorem State.setPixerr_status : s.setPixerr.status = { s.status with pixerr := true } := rfl
@[simp] theorem State.setPixerr_cmd : s.setPixerr.cmd = s.cmd := rfl
@[simp] theorem State.setPixerr_ops : s.setPixerr.ops = s.ops := rfl
@[simp] theorem State.setPixerr_pixRow : s.setPixerr.pixRow = s.pixRow := rfl
@[simp] theorem State.setPixerr_pixCol : s.setPixerr.pixCol = s.pixCol := rfl
@[simp] theorem State.setPixerr_res : s.setPixerr.res = s.res := rfl
@[simp] theorem State.setPixerr_pb : s.setPixerr.pb = s.pb := rfl
@[simp] theorem State.setPixerr_bm : s.setPixerr.bm = s.bm := rfl
@[simp] theorem State.setPixerr_gw : s.setPixerr.gw = s.gw := rfl
@[simp] theorem State.setPixerr_engine : s.setPixerr.engine = s.engine := rfl
@[simp] theorem State.setPixerr_host : s.setPixerr.host = s.host := rfl
@[simp] theorem State.setPixerr_busData : s.setPixerr.busData = s.busData := rfl
@[simp] theorem State.setPixerr_draws : s.setPixerr.draws = s.draws := rfl

/-! ### State.setOps -/

@[simp] theorem State.setOps_cfg (o : Operands) : (s.setOps o).cfg = s.cfg := rfl
@[simp] theorem State.setOps_ie (o : Operands) : (s.setOps o).ie = s.ie := rfl
@[simp] theorem State.setOps_status (o : Operands) : (s.setOps o).status = s.status := rfl
@[simp] theorem State.setOps_cmd (o : Operands) : (s.setOps o).cmd = s.cmd := rfl
@[simp] theorem State.setOps_ops (o : Operands) : (s.setOps o).ops = o := rfl
@[simp] theorem State.setOps_pixRow (o : Operands) : (s.setOps o).pixRow = s.pixRow := rfl
@[simp] theorem State.setOps_pixCol (o : Operands) : (s.setOps o).pixCol = s.pixCol := rfl
@[simp] theorem State.setOps_res (o : Operands) : (s.setOps o).res = s.res := rfl
@[simp] theorem State.setOps_pb (o : Operands) : (s.setOps o).pb = s.pb := rfl
@[simp] theorem State.setOps_bm (o : Operands) : (s.setOps o).bm = s.bm := rfl
@[simp] theorem State.setOps_gw (o : Operands) : (s.setOps o).gw = s.gw := rfl
@[simp] theorem State.setOps_engine (o : Operands) : (s.setOps o).engine = s.engine := rfl
@[simp] theorem State.setOps_host (o : Operands) : (s.setOps o).host = s.host := rfl
@[simp] theorem State.setOps_busData (o : Operands) : (s.setOps o).busData = s.busData := rfl
@[simp] theorem State.setOps_draws (o : Operands) : (s.setOps o).draws = s.draws := rfl

/-! ### State.setResults -/

@[simp] theorem State.setResults_cfg (r : Results) : (s.setResults r).cfg = s.cfg := rfl
@[simp] theorem State.setResults_ie (r : Results) : (s.setResults r).ie = s.ie := rfl
@[simp] theorem State.setResults_status (r : Results) : (s.setResults r).status = s.status := rfl
@[simp] theorem State.setResults_cmd (r : Results) : (s.setResults r).cmd = s.cmd := rfl
@[simp] theorem State.setResults_ops (r : Results) : (s.setResults r).ops = s.ops := rfl
@[simp] theorem State.setResults_pixRow (r : Results) : (s.setResults r).pixRow = s.pixRow := rfl
@[simp] theorem State.setResults_pixCol (r : Results) : (s.setResults r).pixCol = s.pixCol := rfl
@[simp] theorem State.setResults_res (r : Results) : (s.setResults r).res = r := rfl
@[simp] theorem State.setResults_pb (r : Results) : (s.setResults r).pb = s.pb := rfl
@[simp] theorem State.setResults_bm (r : Results) : (s.setResults r).bm = s.bm := rfl
@[simp] theorem State.setResults_gw (r : Results) : (s.setResults r).gw = s.gw := rfl
@[simp] theorem State.setResults_engine (r : Results) : (s.setResults r).engine = s.engine := rfl
@[simp] theorem State.setResults_host (r : Results) : (s.setResults r).host = s.host := rfl
@[simp] theorem State.setResults_busData (r : Results) : (s.setResults r).busData = s.busData := rfl
@[simp] theorem State.setResults_draws (r : Results) : (s.setResults r).draws = s.draws := rfl

/-! ### State.setImage -/

@[simp] theorem State.setImage_cfg (p : PixelBuffer) : (s.setImage p).cfg = s.cfg := rfl
@[simp] theorem State.setImage_ie (p : PixelBuffer) : (s.setImage p).ie = s.ie := rfl
@[simp] theorem State.setImage_status (p : PixelBuffer) : (s.setImage p).status = s.status := rfl
@[simp] theorem State.setImage_cmd (p : PixelBuffer) : (s.setImage p).cmd = s.cmd := rfl
@[simp] theorem State.setImage_ops (p : PixelBuffer) : (s.setImage p).ops = s.ops := rfl
@[simp] theorem State.setImage_pixRow (p : PixelBuffer) : (s.setImage p).pixRow = s.pixRow := rfl
@[simp] theorem State.setImage_pixCol (p : PixelBuffer) : (s.setImage p).pixCol = s.pixCol := rfl
@[simp] theorem State.setImage_res (p : PixelBuffer) : (s.setImage p).res = s.res := rfl
@[simp] theorem State.setImage_pb (p : PixelBuffer) : (s.setImage p).pb = p := rfl
@[simp] theorem State.setImage_bm (p : PixelBuffer) : (s.setImage p).bm = s.bm := rfl
@[simp] theorem State.setImage_gw (p : PixelBuffer) : (s.setImage p).gw = s.gw := rfl
@[simp] theorem State.setImage_engine (p : PixelBuffer) : (s.setImage p).engine = s.engine := rfl
@[simp] theorem State.setImage_host (p : PixelBuffer) : (s.setImage p).host = s.host := rfl
@[simp] theorem State.setImage_busData (p : PixelBuffer) : (s.setImage p).busData = s.busData := rfl
@[simp] theorem State.setImage_draws (p : PixelBuffer) : (s.setImage p).draws = s.draws := rfl

/-! ### State.softReset -/

@[simp] theorem State.softReset_cfg : s.softReset.cfg = s.cfg := rfl
@[simp] theorem State.softReset_ie : s.softReset.ie = false := rfl
@[simp] theorem State.softReset_status : s.softReset.status = Status.reset := rfl
@[simp] theorem State.softReset_cmd : s.softReset.cmd = 0 := rfl
@[simp] theorem State.softReset_ops : s.softReset.ops = Operands.reset := rfl
@[simp] theorem State.softReset_pixRow : s.softReset.pixRow = 0 := rfl
@[simp] theorem State.softReset_pixCol : s.softReset.pixCol = 0 := rfl
@[simp] theorem State.softReset_res : s.softReset.res = Results.reset := rfl
@[simp] theorem State.softReset_pb : s.softReset.pb = { s.pb with h := 0, w := 0, offset := 54 } := rfl
@[simp] theorem State.softReset_bm : s.softReset.bm = s.bm := rfl
@[simp] theorem State.softReset_gw : s.softReset.gw = s.gw := rfl
@[simp] theorem State.softReset_engine : s.softReset.engine = none := rfl
@[simp] theorem State.softReset_host : s.softReset.host = s.host := rfl
@[simp] theorem State.softReset_busData : s.softReset.busData = s.busData := rfl
@[simp] theorem State.softReset_draws : s.softReset.draws = s.draws := rfl

/-! ### State.hardReset -/

@[simp] theorem State.hardReset_cfg : s.hardReset.cfg = s.cfg := rfl
@[simp] theorem State.hardReset_ie : s.hardReset.ie = false := rfl
@[simp] theorem State.hardReset_status : s.hardReset.status = Status.reset := rfl
@[simp] theorem State.hardReset_cmd : s.hardReset.cmd = 0 := rfl
@[simp] theorem State.hardReset_ops : s.hardReset.ops = Operands.reset := rfl
@[simp] theorem State.hardReset_pixRow : s.hardReset.pixRow = 0 := rfl
@[simp] theorem State.hardReset_pixCol : s.hardReset.pixCol = 0 := rfl
@[simp] theorem State.hardReset_res : s.hardReset.res = Results.reset := rfl
@[simp] theorem State.hardReset_pb : s.hardReset.pb = ⟨0, 0, 54, s.pb.cells.powerUp⟩ := rfl
@[simp] theorem State.hardReset_bm : s.hardReset.bm = s.bm.powerUp := rfl
@[simp] theorem State.hardReset_gw : s.hardReset.gw = s.gw.powerUp := rfl
@[simp] theorem State.hardReset_engine : s.hardReset.engine = none := rfl
@[simp] theorem State.hardReset_host : s.hardReset.host = s.host := rfl
@[simp] theorem State.hardReset_busData : s.hardReset.busData = s.busData := rfl
@[simp] theorem State.hardReset_draws : s.hardReset.draws = s.draws := rfl

/-! ### Status -/

@[simp] theorem Status.completed_done (st : Status) : st.completed.done = true := rfl
@[simp] theorem Status.completed_haz (st : Status) : st.completed.haz = st.haz := rfl
@[simp] theorem Status.completed_buserr (st : Status) : st.completed.buserr = st.buserr := rfl
@[simp] theorem Status.completed_pixerr (st : Status) : st.completed.pixerr = st.pixerr := rfl
@[simp] theorem Status.completed_errClass (st : Status) : st.completed.errClass = st.errClass := rfl
@[simp] theorem Status.completed_errDetail (st : Status) : st.completed.errDetail = st.errDetail := rfl
@[simp] theorem Status.completed_errInfo (st : Status) : st.completed.errInfo = st.errInfo := rfl
@[simp] theorem Status.failed_done (st : Status) (e : CmdError) : (st.failed e).done = true := rfl
@[simp] theorem Status.failed_haz (st : Status) (e : CmdError) : (st.failed e).haz = st.haz := rfl
@[simp] theorem Status.failed_buserr (st : Status) (e : CmdError) : (st.failed e).buserr = st.buserr := rfl
@[simp] theorem Status.failed_pixerr (st : Status) (e : CmdError) : (st.failed e).pixerr = st.pixerr := rfl
@[simp] theorem Status.failed_errClass (st : Status) (e : CmdError) : (st.failed e).errClass = e.errClass := rfl
@[simp] theorem Status.failed_errDetail (st : Status) (e : CmdError) : (st.failed e).errDetail = e.errDetail := rfl
@[simp] theorem Status.failed_errInfo (st : Status) (e : CmdError) : (st.failed e).errInfo = e.errInfo := rfl
@[simp] theorem Status.accepted_done (st : Status) : st.accepted.done = false := rfl
@[simp] theorem Status.accepted_haz (st : Status) : st.accepted.haz = st.haz := rfl
@[simp] theorem Status.accepted_buserr (st : Status) : st.accepted.buserr = st.buserr := rfl
@[simp] theorem Status.accepted_pixerr (st : Status) : st.accepted.pixerr = st.pixerr := rfl
@[simp] theorem Status.accepted_errClass (st : Status) : st.accepted.errClass = 0 := rfl
@[simp] theorem Status.accepted_errDetail (st : Status) : st.accepted.errDetail = 0 := rfl
@[simp] theorem Status.accepted_errInfo (st : Status) : st.accepted.errInfo = 0 := rfl
@[simp] theorem Status.w1c_done (st : Status) (v : Word) : (st.w1c v).done = (st.done && !v.getLsbD 1) := rfl
@[simp] theorem Status.w1c_haz (st : Status) (v : Word) : (st.w1c v).haz = (st.haz && !v.getLsbD 3) := rfl
@[simp] theorem Status.w1c_buserr (st : Status) (v : Word) : (st.w1c v).buserr = (st.buserr && !v.getLsbD 4) := rfl
@[simp] theorem Status.w1c_pixerr (st : Status) (v : Word) : (st.w1c v).pixerr = (st.pixerr && !v.getLsbD 5) := rfl
@[simp] theorem Status.w1c_errClass (st : Status) (v : Word) : (st.w1c v).errClass = st.errClass := rfl
@[simp] theorem Status.w1c_errDetail (st : Status) (v : Word) : (st.w1c v).errDetail = st.errDetail := rfl
@[simp] theorem Status.w1c_errInfo (st : Status) (v : Word) : (st.w1c v).errInfo = st.errInfo := rfl

/-! ### Busy and the sampled inputs -/

@[simp] theorem State.busy_finish : s.finish.busy = false := rfl
@[simp] theorem State.busy_raise (e : CmdError) : (s.raise e).busy = false := rfl
@[simp] theorem State.busy_start (w : Word) (d : Nat) : (s.start w d).busy = true := rfl
@[simp] theorem State.busy_accept (w : Word) : (s.accept w).busy = true := rfl
@[simp] theorem State.busy_softReset : s.softReset.busy = false := rfl
@[simp] theorem State.busy_hardReset : s.hardReset.busy = false := rfl

theorem State.busy_iff : s.busy = true ↔ ∃ e, s.engine = some e := by
  simp [State.busy, Option.isSome_iff_exists]

/-- With no command running, the inputs are the live registers and memories. -/
theorem State.inputs_of_idle (h : s.engine = none) : s.inputs = s.sample := by
  simp [State.inputs, h]

/-- With a command running, the inputs are the copies taken at acceptance. -/
theorem State.inputs_of_running {e : Running} (h : s.engine = some e) : s.inputs = e.inputs := by
  simp [State.inputs, h]

/-- Right after acceptance the inputs are the registers and memories of that step (70_reset_and_hazards.md R561). -/
@[simp] theorem State.inputs_start (w : Word) (d : Nat) : (s.start w d).inputs = s.sample := rfl

end Sys2Proof.Machine
end

