-- ==== Sys2Proof/Laws/Bus.lean ====
section
/-! SUPPORT. Where a bus address leads (20_memory.md R101 to R104), and what the byte lanes of a word write leave in every
byte of a memory. -/

namespace Sys2Proof.Machine

/-! ### The address map -/

/-- Every register is the one found at its offset (10_state.md R31). -/
theorem regAt_offset (r : RegName) : regAt r.offset = some r := by
  cases r with
  | k i => revert i; decide
  | a7ph i => revert i; decide
  | a7pw i => revert i; decide
  | _ => rfl

theorem RegName.offset_lt (r : RegName) : r.offset < 0x140 := by
  cases r <;> simp only [RegName.offset] <;> omega

theorem RegName.offset_aligned (r : RegName) : r.offset % 4 = 0 := by
  cases r <;> simp only [RegName.offset] <;> omega

theorem RegName.offset_injective {r r' : RegName} (h : r.offset = r'.offset) : r = r' :=
  Option.some.inj (by rw [← regAt_offset r, ← regAt_offset r', h])

@[simp] theorem RegName.addr_toNat (r : RegName) : r.addr.toNat = r.offset := by
  have := r.offset_lt
  simp only [RegName.addr, BitVec.toNat_ofNat]
  omega

/-- A register found at an offset lies there. -/
theorem offset_of_regAt {o : Nat} {r : RegName} (h : regAt o = some r) : r.offset = o := by
  simpa using List.find?_some h

/-- An access at a register's offset reaches that register. -/
theorem busAccess_of_offset (cfg : Config) {addr : Word} {r : RegName} (h : addr.toNat = r.offset) :
    busAccess cfg addr = some (.reg r) := by
  have h1 := r.offset_lt
  have h2 := r.offset_aligned
  rw [busAccess, if_neg (by omega), busTarget, if_pos (by omega), h, regAt_offset, Option.map_some]

@[simp] theorem busAccess_addr (cfg : Config) (r : RegName) : busAccess cfg r.addr = some (.reg r) :=
  busAccess_of_offset cfg r.addr_toNat

/-- An aligned access in the BM window reaches BM. -/
theorem busAccess_bm (cfg : Config) {addr : Word} {o : Nat} (ha : addr.toNat % 4 = 0)
    (h : addr.toNat = 0x01000000 + o) (ho : o < cfg.bmBytes) : busAccess cfg addr = some (.bm o) := by
  have e : addr.toNat - 0x01000000 = o := by omega
  simp only [busAccess, busTarget]
  rw [if_neg (by omega), if_neg (by omega), if_neg (by omega), if_pos (by omega), e]

/-- The GW window ends below BM for a legal configuration (20_memory.md R101). -/
theorem gwEntries_le {cfg : Config} (h : cfg.legal) : 8 * cfg.gwEntries ≤ 0x800000 := by
  have h1 : 2 * cfg.gaussRmax + 1 ≤ 1023 := by have := h.2.2.1; omega
  have h2 : cfg.gwEntries ≤ 1023 ^ 2 := Nat.pow_le_pow_left h1 2
  omega

/-- An aligned access in the GW window below the last entry reaches GW. -/
theorem busAccess_gw {cfg : Config} (hc : cfg.legal) {addr : Word} {o : Nat} (ha : addr.toNat % 4 = 0)
    (h : addr.toNat = 0x1000 + o) (ho : o < 8 * cfg.gwEntries) : busAccess cfg addr = some (.gw o) := by
  have := gwEntries_le hc
  have e : addr.toNat - 0x1000 = o := by omega
  simp only [busAccess, busTarget]
  rw [if_neg (by omega), if_neg (by omega), if_pos (by omega), if_pos (by omega), e]

/-- An access that reaches a register is at its address (20_memory.md R101). -/
theorem eq_addr_of_busAccess {cfg : Config} {addr : Word} {r : RegName} (h : busAccess cfg addr = some (.reg r)) :
    addr = r.addr := by
  apply BitVec.eq_of_toNat_eq
  rw [RegName.addr_toNat]
  unfold busAccess busTarget at h
  simp only at h
  split at h
  · cases h
  split at h
  · cases hr : regAt addr.toNat with
    | none => rw [hr] at h; cases h
    | some r' => rw [hr] at h; cases h; exact (offset_of_regAt hr).symm
  · split at h <;> split at h <;> cases h

/-- A full-strobe write of a register while BUSY = 0 (20_memory.md R104). -/
theorem busWrite_addr {s : State} (hb : s.busy = false) (r : RegName) (v : Word) :
    s.busWrite r.addr v 0xF = s.writeReg r v := by
  simp [State.busWrite, partialRegWrite, hb, State.writeTarget]

/-- STATUS takes a full-strobe write at any time (70_reset_and_hazards.md R560). -/
theorem busWrite_status (s : State) (v : Word) :
    s.busWrite RegName.status.addr v 0xF = { s with status := s.status.w1c v } := by
  simp [State.busWrite, partialRegWrite, writableWhileBusy, State.writeTarget, State.writeReg]

/-! ### Byte lanes -/

theorem writeLane_epoch (size o : Nat) (data : Word) (strobe : BitVec 4) (k : Nat) (m : Memory Byte) :
    (writeLane size o data strobe k m).epoch = m.epoch := by
  unfold writeLane
  split <;> rfl

/-- Every byte after the write of one lane. -/
theorem get?_writeLane (size o : Nat) (data : Word) (strobe : BitVec 4) (k a : Nat) (m : Memory Byte) :
    (writeLane size o data strobe k m).get? a =
      if strobe.getLsbD k = true ∧ o + k < size ∧ a = o + k then some (lane data k) else m.get? a := by
  unfold writeLane
  by_cases h : strobe.getLsbD k = true ∧ o + k < size
  · rw [if_pos (by simpa using h), Memory.get?_write]
    by_cases ha : a = o + k
    · simp [h, ha]
    · rw [if_neg (by simp only [List.length_cons, List.length_nil]; omega), if_neg (by tauto)]
  · rw [if_neg (by simpa using h), if_neg (by tauto)]

@[simp] theorem writeLanes_epoch (size o : Nat) (data : Word) (strobe : BitVec 4) (m : Memory Byte) :
    (writeLanes size o data strobe m).epoch = m.epoch := by
  simp only [writeLanes, writeLane_epoch]

/-- The byte of an enabled lane that the memory has. -/
theorem get?_writeLanes_on (size o : Nat) (data : Word) (strobe : BitVec 4) {k : Nat} (m : Memory Byte) (hk : k < 4)
    (hs : strobe.getLsbD k = true) (ho : o + k < size) :
    (writeLanes size o data strobe m).get? (o + k) = some (lane data k) := by
  simp only [writeLanes, get?_writeLane]
  interval_cases k <;> simp [hs] <;> omega

/-- Every other byte stays. -/
theorem get?_writeLanes_off (size o : Nat) (data : Word) (strobe : BitVec 4) {a : Nat} (m : Memory Byte)
    (h : ∀ k, k < 4 → strobe.getLsbD k = true → a ≠ o + k) :
    (writeLanes size o data strobe m).get? a = m.get? a := by
  have hk (k : Nat) (hk : k < 4) : ¬ (strobe.getLsbD k = true ∧ o + k < size ∧ a = o + k) :=
    fun ⟨h1, _, h2⟩ => h k hk h1 h2
  simp only [writeLanes, get?_writeLane, if_neg (hk 0 (by omega)), if_neg (hk 1 (by omega)), if_neg (hk 2 (by omega)),
    if_neg (hk 3 (by omega))]

theorem writeLane_wf {m : Memory Byte} (h : m.wf) (size o : Nat) (data : Word) (strobe : BitVec 4) (k : Nat) :
    (writeLane size o data strobe k m).wf := by
  unfold writeLane
  split
  · exact Memory.write_wf h _ _
  · exact h

theorem writeLane_below {m : Memory Byte} {size : Nat} (h : m.below size) (o : Nat) (data : Word) (strobe : BitVec 4)
    (k : Nat) : (writeLane size o data strobe k m).below size := by
  unfold writeLane
  split
  · next hk =>
    simp only [Bool.and_eq_true, decide_eq_true_eq] at hk
    exact Memory.write_below h (by simp only [List.length_cons, List.length_nil]; omega)
  · exact h

/-- A word write keeps the canonical form of a memory. -/
theorem writeLanes_wf {m : Memory Byte} (h : m.wf) (size o : Nat) (data : Word) (strobe : BitVec 4) :
    (writeLanes size o data strobe m).wf :=
  writeLane_wf (writeLane_wf (writeLane_wf (writeLane_wf h _ _ _ _ _) _ _ _ _ _) _ _ _ _ _) _ _ _ _ _

/-- A word write keeps a memory inside its size. -/
theorem writeLanes_below {m : Memory Byte} {size : Nat} (h : m.below size) (o : Nat) (data : Word)
    (strobe : BitVec 4) : (writeLanes size o data strobe m).below size :=
  writeLane_below (writeLane_below (writeLane_below (writeLane_below h _ _ _ _) _ _ _ _) _ _ _ _) _ _ _ _

/-- The four lanes of a bus word are its bytes, least significant first (20_memory.md R105). -/
theorem laneWord_append (f : Nat → Byte) : laneWord f = f 3 ++ f 2 ++ f 1 ++ f 0 := by
  apply BitVec.eq_of_toNat_eq
  have h0 := (f 0).isLt
  have h1 := (f 1).isLt
  have h2 := (f 2).isLt
  have h3 := (f 3).isLt
  simp only [laneWord, BitVec.toNat_ofNat, BitVec.toNat_append]
  rw [← Nat.shiftLeft_add_eq_or_of_lt h2, ← Nat.shiftLeft_add_eq_or_of_lt h1, ← Nat.shiftLeft_add_eq_or_of_lt h0]
  simp only [Nat.shiftLeft_eq]
  omega

end Sys2Proof.Machine
end

