-- ==== Sys2Proof/Laws/Image.lean ====
section
/-! SUPPORT. Grids and images: the entry r*w + c of a grid is `f r c`, and what painting or building an image leaves in
every cell. -/

namespace Sys2Proof.Machine

@[simp] theorem gridOf_length {β : Type} (h w : Nat) (f : Nat → Nat → β) : (gridOf h w f).length = h * w := by
  simp [gridOf]

theorem index_lt {h w r c : Nat} (hr : r < h) (hc : c < w) : r * w + c < h * w :=
  calc r * w + c < r * w + w := by omega
    _ = (r + 1) * w := by ring
    _ ≤ h * w := Nat.mul_le_mul_right w hr

theorem index_div {w r c : Nat} (hc : c < w) : (r * w + c) / w = r := by
  rw [Nat.add_comm, Nat.add_mul_div_right c r (by omega), Nat.div_eq_of_lt hc, Nat.zero_add]

theorem index_mod {w r c : Nat} (hc : c < w) : (r * w + c) % w = c := by
  rw [Nat.add_comm, Nat.add_mul_mod_self_right, Nat.mod_eq_of_lt hc]

theorem gridOf_getElem? {β : Type} {h w i : Nat} (f : Nat → Nat → β) (hi : i < h * w) :
    (gridOf h w f)[i]? = some (f (i / w) (i % w)) := by
  simp [gridOf, hi]

/-- "PB[r][c] for 0 <= r < H and 0 <= c < W is CELL[r*W + c]" (10_state.md R61), for any grid. -/
theorem gridOf_at {β : Type} {h w r c : Nat} (f : Nat → Nat → β) (hr : r < h) (hc : c < w) :
    (gridOf h w f)[r * w + c]? = some (f r c) := by
  rw [gridOf_getElem? f (index_lt hr hc), index_div hc, index_mod hc]

theorem gridOf_congr {β : Type} {h w : Nat} {f g : Nat → Nat → β}
    (hfg : ∀ r, r < h → ∀ c, c < w → f r c = g r c) : gridOf h w f = gridOf h w g := by
  refine List.map_congr_left fun i hi => ?_
  have hi := List.mem_range.1 hi
  have hw : 0 < w := Nat.pos_of_ne_zero fun h0 => by simp [h0] at hi
  exact hfg _ (Nat.div_lt_of_lt_mul (by rwa [Nat.mul_comm] at hi)) _ (Nat.mod_lt _ hw)

/-- A cell after the write of `pixels` from cell 0 on. -/
theorem cell_write (p : PixelBuffer) (h w offset : Word) (pixels : List Pixel) (i : Nat) :
    PixelBuffer.cell ⟨h, w, offset, p.cells.write 0 pixels⟩ i = (pixels[i]?).getD (p.cell i) := by
  simp only [PixelBuffer.cell, Memory.read, Memory.write_epoch, Memory.get?_write, Nat.zero_add, Nat.zero_le, true_and,
    Nat.sub_zero]
  by_cases hi : i < pixels.length
  · simp [hi]
  · rw [if_neg hi, List.getElem?_eq_none (by omega), Option.getD_none]

theorem paint_cell (pixels : List Pixel) (s : State) (i : Nat) :
    (s.paint pixels).pb.cell i = (pixels[i]?).getD (s.pb.cell i) := cell_write s.pb _ _ _ pixels i

theorem buildImage_cell (h w : Nat) (offset : Word) (pixels : List Pixel) (s : State) (i : Nat) :
    (s.buildImage h w offset pixels).pb.cell i = (pixels[i]?).getD (s.pb.cell i) := cell_write s.pb _ _ _ pixels i

/-- The pixels of a painted grid. -/
theorem paint_grid_at (s : State) {h w r c : Nat} (f : Nat → Nat → Pixel) (hr : r < h) (hc : c < w) :
    (s.paint (gridOf h w f)).pb.cell (r * w + c) = f r c := by
  rw [paint_cell, gridOf_at f hr hc, Option.getD_some]

/-- The pixels of a built grid. -/
theorem build_grid_at (s : State) (offset : Word) {h w r c : Nat} (f : Nat → Nat → Pixel) (hr : r < h) (hc : c < w) :
    (s.buildImage h w offset (gridOf h w f)).pb.cell (r * w + c) = f r c := by
  rw [buildImage_cell, gridOf_at f hr hc, Option.getD_some]

/-- Painting leaves the cells past the grid. -/
theorem paint_grid_outside (s : State) {h w i : Nat} (f : Nat → Nat → Pixel) (hi : h * w ≤ i) :
    (s.paint (gridOf h w f)).pb.cell i = s.pb.cell i := by
  rw [paint_cell, List.getElem?_eq_none (by simpa using hi), Option.getD_none]

/-- Building leaves the cells past the grid. -/
theorem build_grid_outside (s : State) (offset : Word) {h w i : Nat} (f : Nat → Nat → Pixel) (hi : h * w ≤ i) :
    (s.buildImage h w offset (gridOf h w f)).pb.cell i = s.pb.cell i := by
  rw [buildImage_cell, List.getElem?_eq_none (by simpa using hi), Option.getD_none]

end Sys2Proof.Machine
end

