-- ==== Sys2Proof/Laws/Commands.lean ====
section
/-! SUPPORT. What a command's last step leaves: the frame and the invariant of each way to commit (paint, build, emit) and
of an error, and the lengths of the byte and pixel lists that the commands write. -/

namespace Sys2Proof.Machine

/-! ### Frames -/

/-- An error changes STATUS, ERR_INFO and the engine only (60_exceptions.md R503). -/
theorem raise_frame (s : State) (e : CmdError) : CommandFrame s (s.raise e) := by constructor <;> rfl

/-- A commit that ends in `done` writes at most the image, BM, the A7 registers and the result registers. -/
theorem commit_frame (s : State) (pb : PixelBuffer) (bm : Memory Byte) (ops : Operands) (res : Results) :
    DoneFrame s (State.finish { s with pb := pb, bm := bm, ops := ops, res := res }) :=
  { (by constructor <;> rfl : CommandFrame _ _) with errClass := rfl, errDetail := rfl, errInfo := rfl }

/-- A commit of the image alone. -/
theorem setImage_frame (s : State) (pb : PixelBuffer) : ImageFrame s (s.setImage pb).finish :=
  { commit_frame s pb s.bm s.ops s.res with ops := rfl, res := rfl, bm := rfl, bmRead := fun _ => rfl }

/-- Building an image. -/
theorem buildImage_frame (s : State) (h w : Nat) (offset : Word) (pixels : List Pixel) :
    ImageFrame s (s.buildImage h w offset pixels).finish := setImage_frame s _

/-- Painting the image from a function of its pixels. -/
theorem paint_frame (s : State) (f : Nat → Nat → Pixel) : PixelFrame s (s.paint (s.inputs.image f)).finish :=
  { setImage_frame s (s.paint (s.inputs.image f)).pb with
    pbH := rfl, pbW := rfl, offset := rfl, outside := fun _ hi => paint_grid_outside s f hi }

/-- Emitting `n` bytes to the destination window. -/
theorem emit_frame (s : State) {n : Nat} {out : List Byte} (hn : out.length = n) :
    OutputFrame n s (s.emit s.inputs.dstAddr n out).finish :=
  { commit_frame s s.pb (s.bm.write s.inputs.dstAddr out) s.ops (s.emit s.inputs.dstAddr n out).res with
    pb := rfl, outLen := rfl, topdown := rfl, crcOut := rfl
    outside := fun _ ha => Memory.read_write_outside _ _ _ (by omega) }

/-- An emitted byte. -/
theorem emit_byte (s : State) (dst n : Nat) {k : Nat} (out : List Byte) (hk : k < out.length) :
    bmByte (s.emit dst n out).bm (dst + k) = out[k] := Memory.read_write_inside _ _ _ hk

/-! ### The invariant -/

/-- While a command runs, its sampled inputs are the registers and memories (70_reset_and_hazards.md R561). -/
theorem inputs_eq_sample {s : State} (h : s.Inv) : s.inputs = s.sample := by
  have := h.engine
  unfold State.engineOk at this
  unfold State.inputs
  split <;> simp_all

theorem errorCodes_mem (e : CmdError) : (e.errClass, e.errDetail) ∈ errorCodes := by
  cases e <;> simp [CmdError.errClass, CmdError.errDetail, errorCodes]

theorem raise_inv {s : State} (h : s.Inv) (e : CmdError) : (s.raise e).Inv where
  memories := ⟨h.1.1, h.1.2, h.1.3, h.1.4, h.1.5, h.1.6⟩
  dims := ⟨h.2.1, h.2.2, h.2.3⟩
  codes := .inr (errorCodes_mem e)
  engine := trivial
  offset := h.offset
  outLen := h.outLen

/-- A commit keeps the invariant when what it writes does. -/
theorem commit_inv {s : State} (h : s.Inv) {pb : PixelBuffer} {bm : Memory Byte} {ops : Operands} {res : Results}
    (hwf : pb.cells.wf) (hbelow : pb.cells.below s.cfg.pbCells) (hbm : bm.wf) (hbmb : bm.below s.cfg.bmBytes)
    (hh : pb.h.toNat ≤ 2 ^ 31 - 1) (hw : pb.w.toNat ≤ 2 ^ 31 - 1) (hc : pb.h.toNat * pb.w.toNat ≤ s.cfg.pbCells)
    (ho : 54 ≤ pb.offset.toNat) (hl : res.outLen.toNat ≤ s.cfg.bmBytes) :
    (State.finish { s with pb := pb, bm := bm, ops := ops, res := res }).Inv where
  memories := ⟨hbm, h.1.2, hwf, hbmb, h.1.5, hbelow⟩
  dims := ⟨hh, hw, hc⟩
  codes := h.codes
  engine := trivial
  offset := ho
  outLen := hl

/-! ### Lengths -/

theorem flatMap_length {β γ : Type} (l : List β) (f : β → List γ) (n : Nat) (hf : ∀ b ∈ l, (f b).length = n) :
    (l.flatMap f).length = l.length * n := by
  induction l with
  | nil => simp
  | cons a l ih =>
    simp only [List.flatMap_cons, List.length_append, List.length_cons]
    rw [hf a (by simp), ih (fun b hb => hf b (by simp [hb]))]
    ring

@[simp] theorem image_length (x : Inputs) (f : Nat → Nat → Pixel) : (x.image f).length = x.h * x.w := by
  simp [Inputs.image]

theorem flatMap_bytes_length (l : List Pixel) : (l.flatMap Pixel.bytes).length = 3 * l.length := by
  rw [flatMap_length l _ 3 fun _ _ => rfl, Nat.mul_comm]

/-- The file of BMP_ENCODE has the length of 41_bmp.md R261. -/
theorem bmpFile_length (x : Inputs) (n : Nat) :
    (bmpHeader n x.w x.h ++ (List.range x.h).flatMap x.bmpRow).length = 54 + x.h * bmpStride x.w := by
  have hrow (i : Nat) : (x.bmpRow i).length = bmpStride x.w := by
    have h := flatMap_length (List.range x.w) (fun j => [(x.px i j).b, (x.px i j).g, (x.px i j).r]) 3 fun _ _ => rfl
    rw [Inputs.bmpRow, List.length_append, h, List.length_replicate, List.length_range, bmpStride]
    ring
  rw [List.length_append, flatMap_length _ _ _ fun i _ => hrow i, List.length_range]
  rfl

/-- One filtered scanline has 1 + 3*W bytes (44_scanline.md R400). -/
theorem scanlines_length (x : Inputs) (t : Nat) :
    ((List.range x.h).flatMap fun i => x.scanline t i).length = x.h * (1 + 3 * x.w) := by
  rw [flatMap_length _ _ (1 + 3 * x.w) fun i _ => by simp [Inputs.scanline]; ring, List.length_range]

theorem defilterRow_length (t : Nat) (prev filtered done : List Byte) :
    (defilterRow t prev filtered done).length = done.length + filtered.length := by
  induction filtered generalizing done with
  | nil => simp [defilterRow]
  | cons a l ih => simp only [defilterRow, ih, List.length_cons]; omega

theorem defilterRows_length (x : Inputs) (w n i : Nat) (prev : List Byte) :
    (x.defilterRows w n i prev).length = n * (3 * w) := by
  induction n generalizing i prev with
  | zero => simp [Inputs.defilterRows]
  | succ n ih => simp [Inputs.defilterRows, ih, defilterRow_length, Inputs.srcBytes]; ring

theorem pixelsOf_length : ∀ l : List Byte, (pixelsOf l).length = l.length / 3
  | [] => rfl
  | [_] => by simp [pixelsOf]
  | [_, _] => by simp [pixelsOf]
  | _ :: _ :: _ :: rest => by simp only [pixelsOf, List.length_cons, pixelsOf_length rest]; omega

/-! ### Words of the source window -/

theorem le32_lt (x : Inputs) (p : Nat) : x.le32 p < 2 ^ 32 := by
  have h0 := (x.src p).isLt
  have h1 := (x.src (p + 1)).isLt
  have h2 := (x.src (p + 2)).isLt
  have h3 := (x.src (p + 2 + 1)).isLt
  unfold Inputs.le32 Inputs.le16
  omega

/-- A source word below 2^31 is its own signed value (00_scope.md R10). -/
theorem le32s_of_lt {x : Inputs} {p : Nat} (h : x.le32 p < 2 ^ 31) : x.le32s p = x.le32 p := by
  generalize hn : x.le32 p = n at h
  rw [Inputs.le32s, hn, BitVec.toInt_eq_toNat_cond, BitVec.toNat_ofNat]
  omega

/-- One round of the chunk loop (43_png_chunk.md R360). -/
theorem pngLoop_succ (x : Inputs) (fuel pos : Nat) (hdr : Option Ihdr) (idat : List Byte) :
    x.pngLoop (fuel + 1) pos hdr idat =
      match x.chunkError pos with
      | some e => .error e
      | none =>
        match hdr with
        | none =>
          if x.srcBytes (pos + 4) 4 ≠ typeIhdr ∨ x.be32 pos ≠ 13 then .error .pngNoIhdr
          else match x.ihdrReject with
            | some offset => .error (.pngIhdrParam offset)
            | none => x.pngLoop fuel (pos + 12 + x.be32 pos) (some x.ihdr) idat
        | some header =>
          if x.srcBytes (pos + 4) 4 = typeIdat then
            x.pngLoop fuel (pos + 12 + x.be32 pos) hdr (idat ++ x.srcBytes (pos + 8) (x.be32 pos))
          else if x.srcBytes (pos + 4) 4 = typeIend then .ok (header, idat)
          else x.pngLoop fuel (pos + 12 + x.be32 pos) hdr idat := rfl

end Sys2Proof.Machine
end

