-- ==== Sys2Proof/Laws/Encoding.lean ====
section
/-! SUPPORT. What the decoder can answer (30_encoding.md R142), said once, and a word put together from its fields
(R140). -/

namespace Sys2Proof

/-- A word is its three fields (30_encoding.md R140). -/
theorem word_of_fields (w : Word) :
    w = (opField w).zeroExtend 32 ||| ((optField w).zeroExtend 32 <<< 8) ||| ((rsvField w).zeroExtend 32 <<< 16) := by
  ext i hi
  simp only [opField, optField, rsvField, BitVec.getElem_or, BitVec.getElem_shiftLeft, BitVec.truncate_eq_setWidth,
    BitVec.getElem_setWidth, BitVec.getLsbD_extractLsb']
  interval_cases i <;> simp

/-- A row found by its OP byte stands in the table. -/
theorem opRow_some {op : Byte} {r : OpRow} (h : opRow op = some r) : r ∈ opTable ∧ r.op = op := by
  refine ⟨List.mem_of_find?_eq_some h, ?_⟩
  simpa using List.find?_some h

/-- A word that decodes has RSV = 0, an OP byte of the table, no OPT bit outside LEGAL_OPT, and selects that row's
command. -/
theorem decode_ok {w : Word} {i : Instr} (h : decode w = .ok i) :
    rsvField w = 0 ∧ ∃ r ∈ opTable, r.op = opField w ∧ optField w &&& ~~~ r.legalOpt = 0 ∧ i = r.build (optField w) := by
  unfold decode at h
  split at h
  · cases h
  · next r hr =>
    split at h
    · cases h
    · next hrsv =>
      split at h
      · cases h
      · next hopt =>
        have hmem := opRow_some hr
        exact ⟨by simpa using hrsv, r, hmem.1, hmem.2, by simpa using hopt, by simpa using h.symm⟩

/-- The fields of an encoded command. -/
theorem rsvField_encode (i : Instr) : rsvField (encode i) = 0 := by
  ext k hk
  simp only [rsvField, encode, BitVec.getElem_extractLsb', BitVec.getLsbD_or, BitVec.getLsbD_shiftLeft,
    BitVec.truncate_eq_setWidth, BitVec.getLsbD_setWidth]
  have h1 : i.op.getLsbD (16 + k) = false := BitVec.getLsbD_of_ge _ _ (by omega)
  have h2 : i.opt.getLsbD (16 + k - 8) = false := BitVec.getLsbD_of_ge _ _ (by omega)
  simp [h1, h2]

theorem opField_encode (i : Instr) : opField (encode i) = i.op := by
  ext k hk
  simp only [opField, encode, BitVec.getElem_extractLsb', BitVec.getLsbD_or, BitVec.getLsbD_shiftLeft,
    BitVec.truncate_eq_setWidth, BitVec.getLsbD_setWidth]
  have : k < 32 := by omega
  simp [hk, this, BitVec.getLsbD_eq_getElem]

theorem optField_encode (i : Instr) : optField (encode i) = i.opt := by
  ext k hk
  simp only [optField, encode, BitVec.getElem_extractLsb', BitVec.getLsbD_or, BitVec.getLsbD_shiftLeft,
    BitVec.truncate_eq_setWidth, BitVec.getLsbD_setWidth]
  have h1 : i.op.getLsbD (8 + k) = false := BitVec.getLsbD_of_ge _ _ (by omega)
  have : 8 + k < 32 := by omega
  have : k < 32 := by omega
  simp [*, BitVec.getLsbD_eq_getElem]

end Sys2Proof
end

