-- ==== Sys2Proof/Laws/PerInstr.lean ====
section
/-! SUPPORT. One lemma per command about its encoding: the three fields of its command word (30_encoding.md R140, R141,
R143), with no bit of RSV set. -/

namespace Sys2Proof.Laws.Fields

/-- The command word of a command has its OP byte in [7:0], its OPT byte in [15:8] and 0 in [31:16] (30_encoding.md
R140). -/
def Statement (i : Instr) : Prop :=
  opField (encode i) = i.op ∧ optField (encode i) = i.opt ∧ rsvField (encode i) = 0

/-- The fields of any encoded command. -/
theorem of_encode (i : Instr) : Statement i := ⟨opField_encode i, optField_encode i, rsvField_encode i⟩

theorem nop : Statement .nop := of_encode _
theorem pbClear : Statement .pbClear := of_encode _
theorem pbAlloc : Statement .pbAlloc := of_encode _
theorem pbLoadRgb : Statement .pbLoadRgb := of_encode _
theorem pbStoreRgb : Statement .pbStoreRgb := of_encode _
theorem pbBlackout : Statement .pbBlackout := of_encode _
theorem pbGrey : Statement .pbGrey := of_encode _
theorem pbGreyLuma : Statement .pbGreyLuma := of_encode _
theorem pbColorMask : Statement .pbColorMask := of_encode _
theorem pbSepia : Statement .pbSepia := of_encode _
theorem pbReflectH : Statement .pbReflectH := of_encode _
theorem pbReflectV : Statement .pbReflectV := of_encode _
theorem bmpDecode : Statement .bmpDecode := of_encode _
theorem bmpEncode : Statement .bmpEncode := of_encode _
theorem conv3 (norm : Bool) : Statement (.conv3 norm) := of_encode _
theorem edges : Statement .edges := of_encode _
theorem gauss : Statement .gauss := of_encode _
theorem pngParse : Statement .pngParse := of_encode _
theorem crc32 : Statement .crc32 := of_encode _
theorem slFilter (t : Nat) : Statement (.slFilter t) := of_encode _
theorem slDefilter : Statement .slDefilter := of_encode _
theorem a7Split : Statement .a7Split := of_encode _
theorem a7Merge (n : Nat) : Statement (.a7Merge n) := of_encode _

end Sys2Proof.Laws.Fields
end

