-- ==== Sys2Proof/Tests/Slice0.lean ====
section
/-! SUPPORT. Tests. The expected values are the vectors V-… of 95_test_vectors.md or the tables of the cited rule. A test runs
one step of the command word from a small state; `witness_<obligation>` shows that the hypotheses of an obligation can be
met. -/

namespace Sys2Proof.Tests

open Sys2Proof.Machine

-- One theorem at a time: the evaluations below need memory, not threads.
set_option Elab.async false

/-! ### Small states -/

/-- A pixel from three numbers. -/
def rgb (q : Nat × Nat × Nat) : Pixel := ⟨BitVec.ofNat 8 q.1, BitVec.ofNat 8 q.2.1, BitVec.ofNat 8 q.2.2⟩

/-- The reset state with this image in PB. -/
def picture (rows : List (List (Nat × Nat × Nat))) : State :=
  State.reset.buildImage rows.length (rows.headD []).length 54 (rows.flatten.map rgb)

/-- A picture whose three channels are equal. -/
def greys (rows : List (List Nat)) : State := picture (rows.map fun row => row.map fun v => (v, v, v))

/-- Bytes in BM from `o` on. -/
def bytes (o : Nat) (bs : List Nat) (s : State) : State := { s with bm := s.bm.write o (bs.map (BitVec.ofNat 8)) }

def srcIs (addr len : Nat) (s : State) : State :=
  { s with ops := { s.ops with srcAddr := BitVec.ofNat 32 addr, srcLen := BitVec.ofNat 32 len } }

def dstIs (addr cap : Nat) (s : State) : State :=
  { s with ops := { s.ops with dstAddr := BitVec.ofNat 32 addr, dstCap := BitVec.ofNat 32 cap } }

def dimIs (h w : Nat) (s : State) : State :=
  { s with ops := { s.ops with dimH := BitVec.ofNat 32 h, dimW := BitVec.ofNat 32 w } }

def argIs (a b c d : Nat) (s : State) : State :=
  { s with ops := { s.ops with arg0 := BitVec.ofNat 32 a, arg1 := BitVec.ofNat 32 b, arg2 := BitVec.ofNat 32 c,
                               arg3 := BitVec.ofNat 32 d } }

def maskIs (r g b : Nat) (s : State) : State :=
  { s with ops := { s.ops with cmFr := BitVec.ofNat 16 r, cmFg := BitVec.ofNat 16 g, cmFb := BitVec.ofNat 16 b } }

def kernelIs (k : List Int) (s : State) : State :=
  { s with ops := { s.ops with k := Vector.ofFn fun i : Fin 9 => BitVec.ofInt 8 (k.getD i.val 0) } }

def blurIs (radius : Nat) (weights : List Nat) (s : State) : State :=
  { s with ops := { s.ops with gaussR := BitVec.ofNat 32 radius },
           gw := s.gw.write 0 (weights.flatMap fun x => leBytes x 8) }

/-- The state after one step that runs the command word. -/
def run (w : Nat) (s : State) : State :=
  match step (s.withFetchWord 32 w) with
  | .next t => t
  | .fault _ | .refused _ => s

/-- The image as numbers. -/
def pixels (s : State) : List (List (Nat × Nat × Nat)) :=
  (List.range s.pb.h.toNat).map fun r => (List.range s.pb.w.toNat).map fun c =>
    ((s.pb.px r c).r.toNat, (s.pb.px r c).g.toNat, (s.pb.px r c).b.toNat)

/-- One channel of the image. -/
def reds (s : State) : List (List Nat) := (pixels s).map fun row => row.map Prod.fst

/-- The output bytes of the last command. -/
def output (s : State) : List Nat :=
  (List.range s.res.outLen.toNat).map fun k => (bmByte s.bm (s.ops.dstAddr.toNat + k)).toNat

/-- BUSY, DONE, ERR_CLASS, ERR_DETAIL and ERR_INFO. -/
def report (s : State) : Bool × Bool × Nat × Nat × Nat :=
  (s.busy, s.status.done, s.status.errClass.toNat, s.status.errDetail.toNat, s.status.errInfo.toNat)

/-- What `report` says of a command that ended in `done`, and of one that failed. -/
def good : Bool × Bool × Nat × Nat × Nat := (false, true, 0, 0, 0)
def bad (errClass detail info : Nat) : Bool × Bool × Nat × Nat × Nat := (false, true, errClass, detail, info)

/-! ### Well-formedness: ill-formed terms are refused -/

theorem test_wf_filter_type_is_a_byte : ¬ (Instr.slFilter 256).wf ∧ (Instr.slFilter 255).wf := by decide
theorem test_wf_pass_count_is_a_byte : ¬ (Instr.a7Merge 256).wf ∧ (Instr.a7Merge 0).wf := by decide

/-! ### Decoding: words written out from 30_encoding.md R143 and R141 -/

theorem test_decode_pixel_buffer :
    decode 0b00000000000000000000000000000000 = .ok .nop ∧
    decode 0b00000000000000000000000000010000 = .ok .pbClear ∧
    decode 0b00000000000000000000000000010001 = .ok .pbAlloc ∧
    decode 0b00000000000000000000000000010010 = .ok .pbLoadRgb ∧
    decode 0b00000000000000000000000000010011 = .ok .pbStoreRgb ∧
    decode 0b00000000000000000000000000010100 = .ok .pbBlackout := by decide

theorem test_decode_pixel_filters :
    decode 0b00000000000000000000000000010101 = .ok .pbGrey ∧
    decode 0b00000000000000000000000000010110 = .ok .pbGreyLuma ∧
    decode 0b00000000000000000000000000010111 = .ok .pbColorMask ∧
    decode 0b00000000000000000000000000011000 = .ok .pbSepia ∧
    decode 0b00000000000000000000000000011001 = .ok .pbReflectH ∧
    decode 0b00000000000000000000000000011010 = .ok .pbReflectV := by decide

theorem test_decode_bmp :
    decode 0b00000000000000000000000000100000 = .ok .bmpDecode ∧
    decode 0b00000000000000000000000000100001 = .ok .bmpEncode := by decide

theorem test_decode_convolution :
    decode 0b00000000000000000000000000110000 = .ok (.conv3 false) ∧
    decode 0b00000000000000000000000100110000 = .ok (.conv3 true) ∧
    decode 0b00000000000000000000000000110001 = .ok .edges ∧
    decode 0b00000000000000000000000000110010 = .ok .gauss := by decide

theorem test_decode_png :
    decode 0b00000000000000000000000001000000 = .ok .pngParse ∧
    decode 0b00000000000000000000000001000001 = .ok .crc32 := by decide

theorem test_decode_scanline :
    decode 0b00000000000000000000000001010000 = .ok (.slFilter 0) ∧
    decode 0b00000000000000000000010001010000 = .ok (.slFilter 4) ∧
    decode 0b00000000000000001111111101010000 = .ok (.slFilter 255) ∧
    decode 0b00000000000000000000000001010001 = .ok .slDefilter := by decide

theorem test_decode_adam7 :
    decode 0b00000000000000000000000001100000 = .ok .a7Split ∧
    decode 0b00000000000000000000000101100001 = .ok (.a7Merge 1) ∧
    decode 0b00000000000000000000100001100001 = .ok (.a7Merge 8) := by decide

/-- V-DEC-2 to V-DEC-11 and V-DEC-14. -/
theorem test_decode_refusals :
    decode 0x00000001 = .error .opcode ∧ decode 0x0000000F = .error .opcode ∧ decode 0x0000001B = .error .opcode ∧
    decode 0x000000FF = .error .opcode ∧ decode 0x00010001 = .error .opcode ∧
    decode 0x00000100 = .error .reservedBits ∧ decode 0x00010000 = .error .reservedBits ∧
    decode 0x80000000 = .error .reservedBits ∧ decode 0x00000110 = .error .reservedBits ∧
    decode 0x00000230 = .error .reservedBits := by decide

/-- V-DEC-2, V-DEC-8. -/
theorem test_illegal_words_report :
    report (run 0x00000001 State.reset) = bad 4 1 1 ∧ report (run 0x80000000 State.reset) = bad 4 2 0x80000000 := by
  decide +kernel

/-- The encoder writes the words of R148: `cmd SL_FILTER.PAETH` is 0x450, `cmd CONV3.NORM` is 0x130. -/
theorem test_encode : encode (.slFilter 4) = 0x450 ∧ encode (.conv3 true) = 0x130 ∧ encode (.a7Merge 7) = 0x761 := by decide

theorem test_decodeTableWord : decodeTableWord 32 0x450 = some (.slFilter 4) ∧ decodeTableWord 32 1 = none ∧
    decodeTableWord 8 0x61 = some (.a7Merge 0) := by decide

/-! ### Pixel buffer (V-PB) -/

def six : State := greys [[1, 2, 3], [4, 5, 6]]
def loadable : State := bytes 0 [0x0A, 0x14, 0x1E, 0x28, 0x32, 0x3C] (dimIs 1 2 (srcIs 0 6 State.reset))
def pair : State := picture [[(10, 20, 30), (40, 50, 60)]]

/-- V-DEC-1. -/
theorem test_nop : report (run 0 six) = good ∧ (run 0 six).pb = six.pb := by decide +kernel

/-- V-PB-1. -/
theorem test_pb_clear : report (run 0x10 six) = good ∧ (run 0x10 six).pb = { six.pb with h := 0, w := 0 } := by
  decide +kernel

/-- V-PB-2: the cells are undefined afterwards. -/
theorem test_pb_alloc : report (run 0x11 (dimIs 2 2 six)) = good ∧
    (run 0x11 (dimIs 2 2 six)).pb = ⟨2, 2, 54, ⟨[(4, rgb (5, 5, 5)), (5, rgb (6, 6, 6))], 1⟩⟩ := by decide +kernel

/-- V-PB-3. -/
theorem test_pb_alloc_capacity : report (run 0x11 (dimIs 4096 1025 State.reset)) = bad 3 4 0 := by decide +kernel

/-- V-PB-4. -/
theorem test_pb_load_rgb : pixels (run 0x12 loadable) = [[(10, 20, 30), (40, 50, 60)]] := by decide +kernel

/-- V-PB-5, V-PB-8. -/
theorem test_pb_load_rgb_errors : report (run 0x12 (srcIs 0 5 loadable)) = bad 2 0x20 6 ∧
    report (run 0x12 (srcIs (2 ^ 24 - 2) 3 loadable)) = bad 3 5 0 := by decide +kernel

/-- V-PB-9. -/
theorem test_pb_store_rgb :
    output (run 0x13 (dstIs 0x20 4096 pair)) = [0x0A, 0x14, 0x1E, 0x28, 0x32, 0x3C] := by decide +kernel

/-- V-PB-10, V-PB-11. -/
theorem test_pb_store_rgb_errors : report (run 0x13 (dstIs 0x20 5 pair)) = bad 3 6 6 ∧
    report (run 0x13 (dstIs (2 ^ 24 - 3) 4 pair)) = bad 3 5 1 := by decide +kernel

/-- V-PB-13. -/
theorem test_pb_blackout : reds (run 0x14 (argIs 1 2 1 3 six)) = [[1, 2, 3], [4, 0, 0]] := by decide +kernel

/-- V-PB-14, V-PB-16. -/
theorem test_pb_blackout_edges : report (run 0x14 (argIs 0 2 2 4 six)) = bad 3 1 0 ∧
    report (run 0x14 (argIs 3 1 0 9 six)) = good ∧ (run 0x14 (argIs 3 1 0 9 six)).pb = six.pb := by decide +kernel

/-- V-PB-18. -/
theorem test_pb_grey :
    reds (run 0x15 (picture [[(255, 255, 255), (0, 0, 0), (1, 2, 3), (100, 200, 50)]])) = [[230, 0, 1, 97]] := by
  decide +kernel

/-- V-PB-19. -/
theorem test_pb_grey_luma :
    reds (run 0x16 (picture [[(255, 255, 255), (1, 2, 3), (100, 200, 50), (1, 124, 133), (2, 0, 0)]])) =
      [[85, 0, 56, 32, 0]] := by decide +kernel

/-- V-PB-20. -/
theorem test_pb_color_mask :
    pixels (run 0x17 (maskIs 0x80 0x100 0 (picture [[(201, 17, 99)]]))) = [[(100, 17, 0)]] := by decide +kernel

/-- V-PB-21. -/
theorem test_pb_color_mask_signs :
    pixels (run 0x17 (maskIs 0x180 0xFF80 0x7FFF (picture [[(201, 17, 99), (255, 128, 1)]]))) =
      [[(255, 0, 255), (255, 0, 127)]] := by decide +kernel

/-- V-PB-22. -/
theorem test_pb_sepia :
    pixels (run 0x18 (picture [[(100, 100, 100), (255, 255, 255), (10, 20, 30)]])) =
      [[(135, 120, 93), (255, 255, 238), (24, 22, 17)]] := by decide +kernel

/-- V-PB-25, V-PB-26. -/
theorem test_pb_reflect_h : reds (run 0x19 (greys [[0, 1, 2]])) = [[2, 1, 0]] ∧
    reds (run 0x19 (greys [[0, 1, 2, 3]])) = [[3, 2, 1, 0]] := by decide +kernel

/-- V-PB-27. -/
theorem test_pb_reflect_v : reds (run 0x1A (greys [[0], [1], [2]])) = [[2], [1], [0]] := by decide +kernel

/-! ### BMP (V-BMP) -/

/-- A BMP header with width w, height h and data offset off, as V-BMP-3 and the following take it. -/
def header (w h off : Nat) : List Nat :=
  [0x42, 0x4D, 0x3A, 0, 0, 0, 0, 0, 0, 0] ++ (leBytes off 4).map BitVec.toNat ++ [0x28, 0, 0, 0]
    ++ (leBytes w 4).map BitVec.toNat ++ (leBytes h 4).map BitVec.toNat ++ [1, 0, 0x18, 0] ++ List.replicate 24 0

def bmpFile (w h off len : Nat) (body : List Nat) : State := srcIs 0 len (bytes 0 (header w h off ++ body) State.reset)

/-- V-BMP-3 and V-BMP-5. -/
theorem test_bmp_decode :
    pixels (run 0x20 (bmpFile 1 (2 ^ 32 - 2) 54 62 [1, 2, 3, 0, 4, 5, 6, 0])) = [[(6, 5, 4)], [(3, 2, 1)]] ∧
    (run 0x20 (bmpFile 1 (2 ^ 32 - 2) 54 62 [1, 2, 3, 0, 4, 5, 6, 0])).res.topdown = true ∧
    (run 0x20 (bmpFile 1 1 60 64 [0xEE, 0xEE, 0xEE, 0xEE, 0xEE, 0xEE, 0x10, 0x20, 0x30, 0x99])).pb.offset = 60 := by
  decide +kernel

/-- V-BMP-6, V-BMP-8, V-BMP-9, V-BMP-10, V-BMP-12. -/
theorem test_bmp_decode_errors :
    report (run 0x20 (bmpFile 1 1 54 53 [])) = bad 2 3 54 ∧ report (run 0x20 (bmpFile 1 1 40 58 [])) = bad 2 2 40 ∧
    report (run 0x20 (bmpFile (2 ^ 32 - 1) 1 54 58 [])) = bad 2 4 0 ∧
    report (run 0x20 (bmpFile 1 (2 ^ 31) 54 58 [])) = bad 2 4 1 ∧
    report (run 0x20 (bmpFile 2 2 54 62 [])) = bad 2 3 70 := by decide +kernel

/-- V-BMP-1. -/
theorem test_bmp_encode : output (run 0x21 (dstIs 0 4096 (picture [[(0x30, 0x20, 0x10)]]))) =
    [0x42, 0x4D, 0x3A, 0, 0, 0, 0, 0, 0, 0, 0x36, 0, 0, 0, 0x28, 0, 0, 0, 1, 0, 0, 0, 1, 0, 0, 0, 1, 0, 0x18, 0]
      ++ List.replicate 24 0 ++ [0x10, 0x20, 0x30, 0] := by decide +kernel

/-- V-BMP-17. -/
theorem test_bmp_encode_cap : report (run 0x21 (dstIs 0 57 (picture [[(1, 2, 3)]]))) = bad 3 6 58 := by decide +kernel

/-! ### Convolution and blur (V-CV, V-ED, V-GA) -/

/-- V-CV-1 for the channel R, V-CV-5. -/
theorem test_conv3_norm :
    reds (run 0x130 (kernelIs (List.replicate 9 1) (greys [[10, 20, 30], [40, 50, 60], [70, 80, 90]]))) =
      [[30, 35, 40], [45, 50, 55], [60, 65, 70]] ∧
    reds (run 0x130 (kernelIs (List.replicate 9 (-1)) (greys [[0, 100]]))) = [[0, 0]] := by decide +kernel

/-- V-CV-2 for the channel R, V-CV-6. -/
theorem test_conv3_raw :
    reds (run 0x30 (kernelIs [0, -1, 0, -1, 5, -1, 0, -1, 0] (greys [[10, 20, 30], [40, 50, 60], [70, 80, 90]]))) =
      [[0, 10, 70], [70, 50, 130], [230, 190, 255]] ∧
    reds (run 0x30 (kernelIs [0, 0, 0, 0, -128] (greys [[1]]))) = [[0]] := by decide +kernel

/-- V-ED-1, V-ED-2. -/
theorem test_edges : reds (run 0x31 (greys [[0, 0, 255]])) = [[0, 255, 0]] ∧
    pixels (run 0x31 (picture [[(150, 50, 99)]])) = [[(0, 50, 99)]] := by decide +kernel

/-- V-ED-3, V-ED-4, V-ED-7. -/
theorem test_edges_threshold : reds (run 0x31 (greys [[30, 30], [30, 30]])) = [[30, 30], [30, 30]] ∧
    reds (run 0x31 (greys [[31, 31], [31, 31]])) = [[132, 132], [132, 132]] ∧
    reds (run 0x31 (greys [[100, 100], [100, 100]])) = [[255, 255], [255, 255]] := by decide +kernel

/-- V-GA-2 for the channel R, V-GA-9. -/
theorem test_gauss :
    reds (run 0x32 (blurIs 1 (List.replicate 9 0x3FBC71C71C71C71C) (greys [[0, 90], [30, 60]]))) = [[33, 57], [37, 53]] ∧
    pixels (run 0x32 (blurIs 0 [0x3FE0000000000000] (picture [[(5, 6, 7)]]))) = [[(3, 3, 4)]] := by decide +kernel

/-- V-GA-3, V-GA-5, V-GA-6. -/
theorem test_gauss_specials : report (run 0x32 (blurIs 16 [] six)) = bad 3 8 16 ∧
    report (run 0x32 (blurIs 0 [0x7FF0000000000000] (greys [[0, 90]]))) = bad 3 9 0 ∧
    pixels (run 0x32 (blurIs 0 [0x7FF0000000000000] (picture [[(5, 6, 7)]]))) = [[(255, 255, 255)]] := by decide +kernel

/-- 00_scope.md R11, IEEE 754: an overflow, a tie between subnormals, inf - inf, inf * 0, -0 + 0, and the tie 2^53 + 1. -/
theorem test_f64 :
    (F64.ofBits 0x7FEFFFFFFFFFFFFF).add (F64.ofBits 0x7FEFFFFFFFFFFFFF) = .inf false ∧
    (F64.ofBits 0x0000000000000003).mul (F64.ofBits 0x3FE0000000000000) = F64.ofBits 0x0000000000000002 ∧
    (F64.ofBits 0x7FF0000000000000).add (F64.ofBits 0xFFF0000000000000) = .nan ∧
    (F64.ofBits 0xFFF0000000000000).mul (F64.ofBits 0) = .nan ∧
    (F64.ofBits 0x8000000000000000).add (F64.ofBits 0) = .fin false 0 0 ∧
    (F64.ofBits 0x4340000000000000).add (F64.ofNat 1) = F64.ofBits 0x4340000000000000 := by decide +kernel

/-! ### PNG and CRC-32 (V-PNG, V-CRC) -/

/-- V-PNG-1. -/
def png1 : List Nat :=
  [0x89, 0x50, 0x4E, 0x47, 0x0D, 0x0A, 0x1A, 0x0A] ++
  [0, 0, 0, 0x0D, 0x49, 0x48, 0x44, 0x52, 0, 0, 0, 1, 0, 0, 0, 1, 8, 6, 0, 0, 0, 0x1F, 0x15, 0xC4, 0x89] ++
  [0, 0, 0, 3, 0x49, 0x44, 0x41, 0x54, 0xAA, 0xBB, 0xCC, 0xB8, 0xC6, 0x6F, 0xFC] ++
  [0, 0, 0, 0, 0x49, 0x45, 0x4E, 0x44, 0xAE, 0x42, 0x60, 0x82]

def pngState (stream : List Nat) (len : Nat) : State :=
  dstIs 0x100 256 (srcIs 0 len (bytes 0 stream State.reset))

/-- V-PNG-1. -/
theorem test_png_parse : output (run 0x40 (pngState png1 60)) = [0xAA, 0xBB, 0xCC] ∧
    (run 0x40 (pngState png1 60)).res.ihdr = ⟨1, 1, 0x608, 0⟩ := by decide +kernel

/-- V-PNG-3, V-PNG-5, V-PNG-9, V-PNG-10. -/
theorem test_png_parse_errors :
    report (run 0x40 (pngState (png1.set 41 0xAB) 60)) = bad 2 0x13 33 ∧
    report (run 0x40 (pngState (png1.set 7 0x0B) 60)) = bad 2 0x10 0 ∧
    report (run 0x40 (pngState png1 48)) = bad 2 0x11 56 ∧
    report (run 0x40 (pngState (png1.set 14 0x31) 60)) = bad 2 0x12 12 := by decide +kernel

/-- V-CRC-1, V-CRC-4. -/
theorem test_crc32 : (run 0x41 State.reset).res.crcOut = 0 ∧
    (run 0x41 (srcIs 0 9 (bytes 0 [0x31, 0x32, 0x33, 0x34, 0x35, 0x36, 0x37, 0x38, 0x39] State.reset))).res.crcOut =
      0xCBF43926 := by decide +kernel

/-- Rows of the table of 43_png_chunk.md R356. -/
theorem test_crc_table : crcTable 0 = 0x00000000 ∧ crcTable 1 = 0x77073096 ∧ crcTable 0xFF = 0x2D02EF8D := by
  decide +kernel

/-! ### Scanlines (V-SL) -/

def square : State := picture [[(100, 150, 200), (50, 60, 250)], [(120, 10, 0), (255, 255, 255)]]

/-- V-SL-2, type 4. -/
theorem test_sl_filter : output (run 0x450 (dstIs 0 4096 square)) =
    [4, 0x64, 0x96, 0xC8, 0xCE, 0xA6, 0x32, 4, 0x14, 0x74, 0x38, 0xCD, 0xF5, 0xFF] := by decide +kernel

/-- V-SL-2, type 3, and V-DEC-12. -/
theorem test_sl_filter_average : output (run 0x350 (dstIs 0 4096 square)) =
      [3, 0x64, 0x96, 0xC8, 0, 0xF1, 0x96, 3, 0x46, 0xBF, 0x9C, 0xAA, 0xDC, 0x82] ∧
    report (run 0xFF50 (dstIs 0 4096 square)) = bad 3 2 255 := by decide +kernel

/-- V-SL-4. -/
def mixed : List Nat := [3, 0x64, 0x96, 0xC8, 0, 0xF1, 0x96, 4, 0x14, 0x74, 0x38, 0xCD, 0xF5, 0xFF]

theorem test_sl_defilter : pixels (run 0x51 (dimIs 2 2 (srcIs 0 14 (bytes 0 mixed State.reset)))) =
    [[(100, 150, 200), (50, 60, 250)], [(120, 10, 0), (255, 255, 255)]] := by decide +kernel

/-- 44_scanline.md R411: the first scanline with a type above 4, and a window that is one byte short. -/
theorem test_sl_defilter_errors :
    report (run 0x51 (dimIs 2 2 (srcIs 0 14 (bytes 0 (mixed.set 7 5) State.reset)))) = bad 3 2 1 ∧
    report (run 0x51 (dimIs 2 2 (srcIs 0 13 (bytes 0 mixed State.reset)))) = bad 2 0x21 14 := by decide +kernel

/-! ### Adam7 (V-A7) -/

def fourPixels : State := dstIs 0 4096 (picture [[(1, 2, 3), (4, 5, 6)], [(7, 8, 9), (10, 11, 12)]])

/-- V-A7-1: 2 x 2 is passes 1, 6 and 7. -/
theorem test_a7_split : output (run 0x60 fourPixels) = [1, 2, 3, 4, 5, 6, 7, 8, 9, 10, 11, 12] ∧
    (run 0x60 fourPixels).ops.a7ph.toList = [1, 1, 0, 1, 0, 1, 1] ∧
    (run 0x60 fourPixels).ops.a7pw.toList = [1, 0, 1, 0, 1, 1, 2] := by decide +kernel

/-- 45_adam7.md R452 on 9 x 9. -/
theorem test_a7_dims : ((List.range 7).map fun q => (passH (q + 1) 9, passW (q + 1) 9)) =
    [(2, 2), (2, 1), (1, 3), (3, 2), (2, 5), (5, 4), (4, 9)] := by decide

theorem test_a7_merge : pixels (run 0x661 (dimIs 2 2 (srcIs 0 12 (run 0x60 fourPixels)))) =
    [[(1, 2, 3), (4, 5, 6)], [(0, 0, 0), (0, 0, 0)]] := by decide +kernel

/-- V-DEC-13, and 45_adam7.md R462: PASS_COUNT(0), A7_DIM. -/
theorem test_a7_merge_errors : report (run 0x861 State.reset) = bad 3 3 8 ∧ report (run 0x61 State.reset) = bad 3 3 0 ∧
    report (run 0x161 (dimIs 1 1 State.reset)) = bad 2 0x22 1 := by decide +kernel

/-! ### The host bus and reset -/

/-- 10_state.md R32 and R31. -/
theorem test_bus_id : (State.reset.busRead 0).busData = 0x494D4701 := by decide +kernel

/-- 20_memory.md R104: unmapped, misaligned, partial strobe of a register. -/
theorem test_bus_errors : State.reset.busWrite 0x00000FFC 1 0xF = State.reset.setBuserr ∧
    State.reset.busRead 0x00000002 = State.reset.setBuserr ∧
    State.reset.busWrite 0x00000028 5 0x1 = State.reset.setBuserr := by decide +kernel

/-- 20_memory.md R105: strobe 0b0110 writes lanes 1 and 2. -/
theorem test_bus_lanes : (State.reset.busWrite 0x01000004 0xAABBCCDD 0x6).bm.cells = [(5, 0xCC), (6, 0xBB)] := by
  decide +kernel

/-- 70_reset_and_hazards.md R560: a refused write sets HAZ; STATUS reads 1 while BUSY. -/
theorem test_busy : (State.reset.withFetchWord 32 0).busWrite 0x00000010 5 0xF =
      (State.reset.withFetchWord 32 0).setHaz ∧
    ((State.reset.withFetchWord 32 0).busRead 8).busData = 1 := by decide +kernel

/-- V-PB-28, V-PB-29: the pixel port. -/
theorem test_pixel_port : (({ pair with pixCol := 1 }).busRead 0x58).busData = 0x003C3228 ∧
    (pair.busWrite 0x58 0xFF010203 0xF).pb.px 0 0 = ⟨3, 2, 1⟩ := by decide +kernel

/-- V-PB-30, V-PB-31. -/
theorem test_pixel_port_outside : ({ pair with pixRow := 1 }).busRead 0x58 = ({ pair with pixRow := 1 }).setPixerr ∧
    ({ pair with pixCol := 2 }).busWrite 0x58 0 0xF = ({ pair with pixCol := 2 }).setPixerr := by decide +kernel

/-- 30_encoding.md R148: `bytes BM+3: 01 02` is two word writes. -/
theorem test_bytes : hostBytes 3 [1, 2] = [.write 0x01000000 0x01000000 0x8, .write 0x01000004 0x00000002 0x1] := by
  decide +kernel

theorem test_reset_memories : State.reset.bm.wf ∧ State.reset.gw.wf ∧ State.reset.pb.cells.wf := by decide

/-! ### Witnesses: the hypotheses of the obligations can be met, each clause at a boundary of its range -/

theorem witness_DecodeOfEncodeIsIdentity : (Instr.slFilter 255).wf ∧ (Instr.a7Merge 0).wf ∧ Instr.gauss.wf := by decide

theorem witness_LegalWordsEncodeBack : decode 0x0000FF61 = .ok (.a7Merge 255) ∧ decode 0 = .ok .nop := by decide

theorem witness_MatchAndMaskSelectTheCommand :
    decode 0x00000130 = .ok (.conv3 true) ∧ (4 < 5 ∧ 5 < 256) ∧ (4 < 255 ∧ 255 < 256) ∧
    ((0 = 0 ∨ 7 < 0) ∧ 0 < 256) ∧ ((8 = 0 ∨ 7 < 8) ∧ 8 < 256) := by decide

/-- An unassigned OP byte; RSV = 1; an OPT bit outside LEGAL_OPT; a legal word. -/
theorem witness_DecodeOrderAndIllegalWords :
    0x01 ∉ assignedOps ∧ (0x61 ∈ assignedOps ∧ 0x00010061 / 65536 ≠ 0) ∧
    (0x30 ∈ assignedOps ∧ (0x02 : Byte) &&& ~~~ legalOptOf 0x30 ≠ 0) ∧
    (0x30 ∈ assignedOps ∧ 0x130 / 65536 = 0 ∧ (0x01 : Byte) &&& ~~~ legalOptOf 0x30 = 0) := by decide

/-- A running command with `delay` host turns left. -/
def busyWith (w : Word) (delay : Nat) (host : List HostEvent) : State :=
  { square.start w delay with host := host }

theorem witness_StepRunsTheAcceptedCommand :
    ((busyWith 0x15 0 []).engine = some ⟨0x15, square.sample, 0⟩ ∧ decode 0x15 = .ok .pbGrey) ∧
    ((busyWith 1 0 []).engine = some ⟨1, square.sample, 0⟩ ∧ decode 1 = .error .opcode) ∧
    (0xFF50 < 2 ^ 32 ∧ decode (BitVec.ofNat 32 0xFF50) = .ok (.slFilter 255)) := ⟨⟨rfl, rfl⟩, ⟨rfl, rfl⟩, by decide⟩

theorem witness_OtherStepsServeTheHost :
    (({ square with host := [.wait] }).engine = none ∧ ({ square with host := [.wait] }).host = [.wait]) ∧
    (square.engine = none ∧ square.host = []) ∧
    ((busyWith 0 1 [.read 0]).engine = some ⟨0, square.sample, 0 + 1⟩ ∧ (busyWith 0 1 [.read 0]).host = [.read 0]) ∧
    ((busyWith 0 1 []).engine = some ⟨0, square.sample, 0 + 1⟩ ∧ (busyWith 0 1 []).host = []) :=
  ⟨⟨rfl, rfl⟩, ⟨rfl, rfl⟩, ⟨rfl, rfl⟩, ⟨rfl, rfl⟩⟩

/-- A 2 x 2 image and a destination window that reaches the end of BM. -/
def ready : State := dstIs (2 ^ 24 - 256) 256 square

theorem ready_inv : ready.Inv where
  memories := by constructor <;> decide +kernel
  dims := by constructor <;> decide +kernel
  codes := .inl ⟨rfl, rfl, rfl⟩
  engine := trivial
  offset := by decide +kernel
  outLen := by decide +kernel

/-- The state `ready` with a command running. -/
theorem running_inv : (ready.start 0x450 0).Inv where
  memories := by constructor <;> decide +kernel
  dims := by constructor <;> decide +kernel
  codes := .inl ⟨rfl, rfl, rfl⟩
  engine := ⟨rfl, rfl, rfl, rfl⟩
  offset := by decide +kernel
  outLen := by decide +kernel

theorem witness_StepKeepsSafeStates : (ready.start 0x450 0).Inv ∧ step (ready.start 0x450 0) = .next (run 0x450 ready) :=
  ⟨running_inv, rfl⟩

theorem witness_EveryAcceptedCommandCompletes :
    (busyWith 0x14 3 [.wait, .read 0]).engine = some ⟨0x14, square.sample, 3⟩ ∧
    HostEvent.hardReset ∉ (busyWith 0x14 3 [.wait, .read 0]).host := ⟨rfl, by decide⟩

/-- A block whose BM has 66 bytes, so that its last word straddles the end, and whose GW has 9 entries. -/
def small : State := State.resetWith { Config.default with bmBytes := 66, gaussRmax := 1 }

/-- Misaligned; the offsets next to mapped ones; a partial strobe; the first and last words of BM and GW. -/
theorem witness_BusErrorsAndStrobes : small.cfg.legal ∧
    ((0x01000001 : Word).toNat % 4 ≠ 0) ∧
    (¬ mapped small.cfg (0x13C : Word).toNat ∧ ¬ mapped small.cfg (0x1048 : Word).toNat ∧
      ¬ mapped small.cfg (0x01000044 : Word).toNat) ∧
    ((0x138 : Word).toNat = (RegName.a7pw 6).offset ∧ (0x7 : BitVec 4) ≠ 0xF) ∧
    (small.busy = false ∧ (0x01000040 : Word).toNat % 4 = 0 ∧ (0x01000040 : Word).toNat = 0x01000000 + 64 ∧
      64 < small.cfg.bmBytes ∧ 1 < 4 ∧ 64 + 1 < small.cfg.bmBytes ∧ (0x2 : BitVec 4).getLsbD 1 = true ∧
      ∀ k, k < 4 → (0x2 : BitVec 4).getLsbD k = true → 64 ≠ 64 + k) ∧
    ((0x1044 : Word).toNat % 4 = 0 ∧ (0x1044 : Word).toNat = 0x1000 + 68 ∧ 68 < 8 * small.cfg.gwEntries ∧
      (0x8 : BitVec 4).getLsbD 3 = true ∧ ∀ k, k < 4 → (0x8 : BitVec 4).getLsbD k = true → 68 ≠ 68 + k) := by
  have hn (a : Nat) (h0 : 0x138 < a) (hr : ∀ r : RegName, r.offset ≠ a)
      (h1 : ¬ (0x1000 ≤ a ∧ a < 0x1048)) (h2 : ¬ (0x01000000 ≤ a ∧ a < 0x01000042)) : ¬ mapped small.cfg a := by
    rintro (⟨r, hr'⟩ | h | h)
    · exact hr r hr'
    · exact h1 h
    · exact h2 h
  have hoff (r : RegName) : r.offset ≤ 0x138 := by cases r <;> simp only [RegName.offset] <;> omega
  refine ⟨by decide, by decide, ⟨?_, ?_, ?_⟩, by decide, ⟨rfl, by decide⟩, by decide⟩ <;>
    exact hn _ (by decide) (fun r => by have := hoff r; simp only [BitVec.reduceToNat]; omega) (by decide) (by decide)

theorem witness_LittleEndianBusWords : small.cfg.legal ∧ small.busy = false ∧
    ((0x01000040 : Word).toNat % 4 = 0 ∧ (0x01000040 : Word).toNat = 0x01000000 + 64 ∧ 64 < small.cfg.bmBytes ∧
      1 < 4 ∧ 64 + 1 < small.cfg.bmBytes) ∧
    ((0x1044 : Word).toNat % 4 = 0 ∧ (0x1044 : Word).toNat = 0x1000 + 68 ∧ 68 < 8 * small.cfg.gwEntries ∧ 3 < 4) :=
  ⟨by decide, rfl, by decide, by decide⟩

theorem witness_GwEntryIsTwoWords :
    (0x1000 + 8 * small.cfg.gwEntries ≤ (0x1048 : Word).toNat ∧ (0x1048 : Word).toNat < 0x01000000) ∧
    small.cfg.legal ∧ small.busy = false ∧ 8 < small.cfg.gwEntries ∧ 0 ≠ 8 :=
  ⟨by decide, by decide, rfl, by decide, by decide⟩

theorem witness_OperandRegistersReadBack : (RegName.ihdrI, 0x0CC) ∈ registerMap ∧ regAt 0x138 = some (.a7pw 6) ∧
    (RegName.pbCount, 4) ∈ registerReads square ∧ (RegName.ihdrI, 0) ∈ registerReads square ∧
    square.busy = false ∧ RegName.ihdrI ∈ readOnlyRegisters ∧ writableBits .srcAddr = some 0xFFFFFFFF ∧
    writableBits .cmFb = some 0xFFFF ∧ writableBits (.k 8) = some 0xFF ∧ RegName.id ≠ .srcAddr ∧ RegName.id ≠ .pixData := by
  decide +kernel

theorem witness_CtrlAndStatusFields : square.busy = false ∧ (1 : Word).getLsbD 1 = false ∧ (2 : Word).getLsbD 1 = true :=
  ⟨rfl, by decide, by decide⟩

/-- A refused CMD write while BUSY, and a W1C write of DONE. -/
theorem witness_ErrorFieldsHoldUntilTheNextCommand :
    ¬ endsErrorReport (busyWith 0 1 []) (.write RegName.cmd.addr 0 0xF) ∧ (2 : Word).getLsbD 1 = true := by
  refine ⟨?_, by decide⟩
  rintro (⟨h, _⟩ | ⟨h, _⟩ | h)
  · exact absurd h (by decide)
  · exact absurd h (by decide)
  · exact absurd h (by decide)

/-- A W1C write that spares each sticky flag; a completion; a W1C write that clears them all. -/
theorem witness_StickyFlagsFallOnlyByWriteOrReset :
    (∀ bit, bit = 3 ∨ bit = 4 ∨ bit = 5 → ¬ clearsSticky square bit (.write RegName.status.addr 2 0xF)) ∧
    (square.setHaz.status.haz = true ∧ square.setBuserr.status.buserr = true ∧ square.setPixerr.status.pixerr = true) ∧
    runCommand 0 square = .next square.finish ∧
    ((0x38 : Word).getLsbD 3 = true ∧ (0x38 : Word).getLsbD 4 = true ∧ (0x38 : Word).getLsbD 5 = true) ∧
    busAccess square.cfg 0x3 = none ∧ (busyWith 0 1 []).busy = true ∧
    (({ square with pixCol := 2 }).busy = false ∧ ¬ ({ square with pixCol := 2 }).pixIn) := by
  refine ⟨?_, ⟨rfl, rfl, rfl⟩, rfl, by decide, by decide, rfl, by decide +kernel⟩
  rintro bit hb (⟨v, hv, h⟩ | ⟨_, v, _, h⟩ | h)
  · injection h with _ h2 _
    subst h2
    rcases hb with rfl | rfl | rfl <;> exact absurd hv (by decide)
  · injection h with h1 _ _
    exact absurd h1 (by decide)
  · cases h

theorem witness_AccessWhileBusy : (busyWith 0 1 []).busy = true ∧
    (busAccess State.reset.cfg 0x01000000 = some (.bm 0) ∧ partialRegWrite (.bm 0) 0xF = false ∧
      ¬ servedWhileBusy (.write 0x01000000 0 0xF)) ∧
    (busAccess State.reset.cfg 0x4 = some (.reg .ctrl) ∧ ¬ servedWhileBusy (.write 0x4 2 0xF)) ∧
    (busAccess State.reset.cfg 0x58 = some (.reg .pixData) ∧ ¬ servedWhileBusy (.read 0x58)) ∧
    (0 : Word).getLsbD 1 = false ∧ busAccess State.reset.cfg 0x3 = none ∧
    (busAccess State.reset.cfg 0xC = some (.reg .cmd) ∧ partialRegWrite (.reg .cmd) 0x7 = true) := by
  refine ⟨rfl, ⟨by decide, rfl, ?_⟩, ⟨by decide, ?_⟩, ⟨by decide, ?_⟩, by decide, by decide, by decide, by decide⟩
  · rintro (h | h | h | ⟨v, h⟩ | ⟨v, _, h⟩)
    · cases h
    · cases h
    · cases h
    · injection h with h1 _ _; exact absurd h1 (by decide)
    · injection h with h1 _ _; exact absurd h1 (by decide)
  · rintro (h | h | h | ⟨v, h⟩ | ⟨v, hv, h⟩)
    · cases h
    · cases h
    · cases h
    · injection h with h1 _ _; exact absurd h1 (by decide)
    · injection h with _ h2 _; subst h2; exact absurd hv (by decide)
  · rintro (h | h | h | ⟨v, h⟩ | ⟨v, _, h⟩)
    · injection h with h1; exact absurd h1 (by decide)
    · injection h with h1; exact absurd h1 (by decide)
    · injection h with h1; exact absurd h1 (by decide)
    · cases h
    · cases h

/-- Two running commands with different words and memories that agree on what a read may depend on; a write to BM. -/
theorem witness_HostCannotTouchARunningCommand :
    let s := busyWith 0 1 []
    let s' := { busyWith 0x15 3 [] with bm := ⟨[(0, 1)], 0⟩, pixRow := 1 }
    (s.busy = true ∧ s'.busy = true ∧ s.cfg = s'.cfg ∧ s.ie = s'.ie ∧ s.status = s'.status ∧ s.draws = s'.draws) ∧
    HostEvent.write 0x01000000 1 0xF ≠ .hardReset := ⟨⟨rfl, rfl, rfl, rfl, rfl, rfl⟩, by decide⟩

theorem witness_CmdWriteStartsTheCommand : square.busy = false ∧ (busyWith 0 1 []).busy = true := ⟨rfl, rfl⟩

/-- A busy block; the last pixel of the image, and the first row below it. -/
theorem witness_PixelPortReadsAndWrites : (busyWith 0 1 []).busy = true ∧
    (({ square with pixRow := 1, pixCol := 1 }).busy = false ∧ (1 : Word).toNat < square.pb.h.toNat ∧
      (1 : Word).toNat < square.pb.w.toNat ∧ 0 ≠ 1 * square.pb.w.toNat + 1) ∧
    ¬ ((2 : Word).toNat < square.pb.h.toNat ∧ (0 : Word).toNat < square.pb.w.toNat) := by decide +kernel

theorem witness_InterruptLevel : runCommand 1 square = .next (square.raise (.opcode 1)) ∧ (2 : Word).getLsbD 1 = true ∧
    ((0 : Word).getLsbD 1 = false ∧ (0 : Word).getLsbD 0 = false) ∧ square.busy = false := ⟨rfl, by decide, by decide, rfl⟩

theorem witness_NopOnlyCompletes : (0 < 1 ∧ 1 < 256) ∧ (0 < 255 ∧ 255 < 256) ∧
    (RegName.ctrl ≠ .status ∧ RegName.ctrl ≠ .cmd ∧ RegName.ctrl ≠ .errInfo) := by decide

/-- Too many cells by one row; and PB_CELLS cells exactly. -/
theorem witness_AllocMakesUndefinedCells :
    (dimIs 2049 2048 square).inputs.dimH * (dimIs 2049 2048 square).inputs.dimW > square.cfg.pbCells ∧
    ((dimIs 2048 2048 square).inputs.dimH ≤ 2 ^ 31 - 1 ∧ (dimIs 2048 2048 square).inputs.dimW ≤ 2 ^ 31 - 1 ∧
      (dimIs 2048 2048 square).inputs.dimH * (dimIs 2048 2048 square).inputs.dimW ≤ square.cfg.pbCells) := by
  decide +kernel

/-- What PB_LOAD_RGB checks: source window out of BM, capacity, too short, just long enough at the end of BM. -/
theorem witness_LoadRgbBuildsTheImage :
    let a := (srcIs (2 ^ 24) 1 square).inputs
    let b := (dimIs (2 ^ 31) 0 (srcIs (2 ^ 24) 0 square)).inputs
    let c := (dimIs 1 2 (srcIs (2 ^ 24 - 5) 5 square)).inputs
    let d := (dimIs 1 2 (srcIs (2 ^ 24 - 6) 6 square)).inputs
    a.srcAddr + a.srcLen > square.cfg.bmBytes ∧
    (b.srcAddr + b.srcLen ≤ square.cfg.bmBytes ∧
      ¬ (b.dimH ≤ 2 ^ 31 - 1 ∧ b.dimW ≤ 2 ^ 31 - 1 ∧ b.dimH * b.dimW ≤ square.cfg.pbCells)) ∧
    (c.srcAddr + c.srcLen ≤ square.cfg.bmBytes ∧
      (c.dimH ≤ 2 ^ 31 - 1 ∧ c.dimW ≤ 2 ^ 31 - 1 ∧ c.dimH * c.dimW ≤ square.cfg.pbCells) ∧
      c.srcLen < 3 * c.dimH * c.dimW) ∧
    (d.srcAddr + d.srcLen ≤ square.cfg.bmBytes ∧
      (d.dimH ≤ 2 ^ 31 - 1 ∧ d.dimW ≤ 2 ^ 31 - 1 ∧ d.dimH * d.dimW ≤ square.cfg.pbCells) ∧
      3 * d.dimH * d.dimW ≤ d.srcLen ∧ 0 < d.dimH ∧ 1 < d.dimW) := by decide +kernel

theorem witness_StoreRgbWritesTheImage :
    let a := (dstIs (2 ^ 24 - 11) 12 square).inputs
    let b := (dstIs (2 ^ 24 - 11) 11 square).inputs
    let c := (dstIs (2 ^ 24 - 12) 12 square).inputs
    a.dstAddr + a.dstCap > square.cfg.bmBytes ∧
    (b.dstAddr + b.dstCap ≤ square.cfg.bmBytes ∧ 3 * b.h * b.w > b.dstCap) ∧
    (c.dstAddr + c.dstCap ≤ square.cfg.bmBytes ∧ 3 * c.h * c.w ≤ c.dstCap ∧ 1 < c.h ∧ 1 < c.w) := by decide +kernel

theorem witness_BlackoutZeroesTheRectangle :
    let a := (argIs 0 3 0 1 square).inputs
    let b := (argIs 1 1 0 9 square).inputs
    let c := (argIs 0 2 1 2 square).inputs
    (a.ops.arg0.toNat < a.ops.arg1.toNat ∧ a.ops.arg2.toNat < a.ops.arg3.toNat ∧ a.ops.arg1.toNat > a.h) ∧
    b.ops.arg0.toNat ≥ b.ops.arg1.toNat ∧
    (c.ops.arg0.toNat < c.ops.arg1.toNat ∧ c.ops.arg2.toNat < c.ops.arg3.toNat ∧ c.ops.arg1.toNat ≤ c.h ∧
      c.ops.arg3.toNat ≤ c.w ∧ 1 < c.h ∧ 1 < c.w) := by decide +kernel

theorem witness_GreyScaleOfEveryPixel : 255 < 256 ∧ 1 < square.inputs.h ∧ 1 < square.inputs.w := by decide +kernel

theorem witness_GreyLumaOfEveryPixel : (255, 241, 179) ∈ lumaExc ∧ 1 < square.inputs.h ∧ 1 < square.inputs.w := by
  decide +kernel

theorem witness_ColorMaskOfEveryPixel : (-32768 : Int) < 0 ∧ 2 ≤ (0x02 : Byte).toNat ∧ 1 < square.inputs.h ∧
    1 < square.inputs.w := by decide +kernel

theorem witness_SepiaOfEveryPixel : 1 < square.inputs.h ∧ 1 < square.inputs.w := by decide +kernel

/-- The state a command leaves. -/
def result (i : Instr) (s : State) : State :=
  match exec i s with
  | .next t => t
  | .fault _ | .refused _ => s

theorem witness_ReflectionsAreMirrors : (1 < square.inputs.h ∧ 1 < square.inputs.w) ∧ square.engine = none ∧
    exec .pbReflectH square = .next (result .pbReflectH square) ∧
    exec .pbReflectH (result .pbReflectH square) = .next (result .pbReflectH (result .pbReflectH square)) ∧
    exec .pbReflectV square = .next (result .pbReflectV square) ∧
    exec .pbReflectV (result .pbReflectV square) = .next (result .pbReflectV (result .pbReflectV square)) :=
  ⟨by decide +kernel, rfl, rfl, rfl, rfl, rfl⟩

/-- A bottom-up and a top-down file of 1 x 2 that just fit their window. -/
theorem witness_BmpDecodeReadsTheFile : ∀ topdown : Bool,
    let x := (bmpFile 1 (if topdown then 2 ^ 32 - 2 else 2) 54 62 [1, 2, 3, 0, 4, 5, 6, 0]).inputs
    x.srcAddr + x.srcLen ≤ State.reset.cfg.bmBytes ∧ x.src 0 = 0x42 ∧ x.src 1 = 0x4D ∧ x.le32 10 = 54 ∧ 54 ≤ 54 ∧
    x.le32s 18 = ((1 : Nat) : Int) ∧ x.le32s 22 = (if topdown then -((2 : Nat) : Int) else ((2 : Nat) : Int)) ∧
    (topdown = true → 0 < 2) ∧ 2 < 2 ^ 31 ∧ 2 * 1 ≤ State.reset.cfg.pbCells ∧ 4 = 3 * 1 + (4 - (1 * 3) % 4) % 4 ∧
    54 + 2 * 4 ≤ x.srcLen ∧ 1 < 2 ∧ 0 < 1 := by decide +kernel

/-- One file for each check that can fail. -/
theorem witness_BmpDecodeFailsInOrder :
    let bound := State.reset.cfg.bmBytes
    let out := (srcIs (2 ^ 24) 1 State.reset).inputs
    let short := (bmpFile 1 1 54 53 []).inputs
    let magic := (bytes 1 [0x4E] (bmpFile 1 1 54 54 [])).inputs
    let off := (bmpFile 1 1 53 54 []).inputs
    let width := (bmpFile (2 ^ 31) 1 54 54 []).inputs
    let height := (bmpFile 0 (2 ^ 31) 54 54 []).inputs
    let cells := (bmpFile 2049 2048 54 54 []).inputs
    let cut := (bmpFile 1 1 54 57 []).inputs
    let c3 (x : Inputs) := (x.srcAddr + x.srcLen ≤ bound ∧ 54 ≤ x.srcLen) ∧ x.src 0 = 0x42 ∧ x.src 1 = 0x4D
    let c5 (x : Inputs) := (c3 x ∧ 54 ≤ x.le32 10) ∧ 0 ≤ x.le32s 18
    let fits (x : Inputs) := (x.le32s 22).natAbs * (x.le32s 18).toNat ≤ State.reset.cfg.pbCells
    ¬ (out.srcAddr + out.srcLen ≤ bound) ∧ (short.srcAddr + short.srcLen ≤ bound ∧ ¬ 54 ≤ short.srcLen) ∧
    (magic.srcAddr + magic.srcLen ≤ bound ∧ 54 ≤ magic.srcLen ∧ ¬ (magic.src 0 = 0x42 ∧ magic.src 1 = 0x4D)) ∧
    (c3 off ∧ ¬ 54 ≤ off.le32 10) ∧ ((c3 width ∧ 54 ≤ width.le32 10) ∧ ¬ 0 ≤ width.le32s 18) ∧
    (c5 height ∧ ¬ height.le32s 22 ≠ -2147483648) ∧ ((c5 cells ∧ cells.le32s 22 ≠ -2147483648) ∧ ¬ fits cells) ∧
    (((c5 cut ∧ cut.le32s 22 ≠ -2147483648) ∧ fits cut) ∧
      cut.srcLen < cut.le32 10 + (cut.le32s 22).natAbs * bmpStride (cut.le32s 18).toNat) := by decide +kernel

theorem witness_BmpEncodeWritesTheFile :
    let n := 54 + 2 * (3 * 2 + (4 - (2 * 3) % 4) % 4)
    let a := (dstIs (2 ^ 24 - 69) 70 square).inputs
    let b := (dstIs (2 ^ 24 - 69) 69 square).inputs
    let c := (dstIs (2 ^ 24 - 70) 70 square).inputs
    a.dstAddr + a.dstCap > square.cfg.bmBytes ∧ (b.dstAddr + b.dstCap ≤ square.cfg.bmBytes ∧ n > b.dstCap) ∧
    (c.dstAddr + c.dstCap ≤ square.cfg.bmBytes ∧ n ≤ c.dstCap ∧ c.h = 2 ∧ c.w = 2) := by decide +kernel

theorem witness_BmpEncodeThenDecodeIsTheIdentity : ready.Inv ∧ ready.cfg.legal ∧ ready.engine = none ∧
    ready.inputs.dstAddr + ready.inputs.dstCap ≤ ready.cfg.bmBytes ∧
    54 + ready.inputs.h * bmpStride ready.inputs.w ≤ ready.inputs.dstCap ∧
    exec .bmpEncode ready = .next (result .bmpEncode ready) :=
  ⟨ready_inv, by decide, rfl, by decide +kernel, by decide +kernel, rfl⟩

theorem witness_ConvolutionOfEveryPixel : 1 < square.inputs.h ∧ 1 < square.inputs.w ∧ 2 < 3 := by decide +kernel

/-- A corner, an edge and the interior of 3 x 3, and the only pixel of 1 x 1. -/
theorem witness_ConvolutionAccumulatorBounds :
    let x := (greys [[1, 2, 3], [4, 5, 6], [7, 8, 9]]).inputs
    let y := (greys [[1]]).inputs
    2 < x.h ∧ 2 < x.w ∧ 2 ≤ x.h ∧ 2 ≤ x.w ∧ 0 < y.h ∧ 0 < y.w := by decide +kernel

/-- Both ends of the range that rounds to n, for n = 1 and n = 255. -/
theorem witness_MagnitudeIsTheRoundedRoot : (1 * 1 < 1 + 1 ∧ 1 ≤ 1 * 1 + 1) ∧ (1 * 1 < 2 + 1 ∧ 2 ≤ 1 * 1 + 1) ∧
    (255 * 255 < 64771 + 255 ∧ 64771 ≤ 255 * 255 + 255) ∧ (255 * 255 < 65280 + 255 ∧ 65280 ≤ 255 * 255 + 255) := by
  decide

theorem witness_EdgesOverlayEveryPixel : 1 < square.inputs.h ∧ 1 < square.inputs.w ∧ 2 < 3 := by decide +kernel

/-- NaN and infinity, a subnormal, the greatest finite number; a sum that is not zero and one that is; the greatest and the
least positive number in the form `canonical64`. -/
theorem witness_Binary64RoundsToNearestEven :
    (0x7FF0000000000000 / 2 ^ 52 % 2 ^ 11 = 2047 ∧ 0x000FFFFFFFFFFFFF / 2 ^ 52 % 2 ^ 11 = 0 ∧
      (0 < 0x7FEFFFFFFFFFFFFF / 2 ^ 52 % 2 ^ 11 ∧ 0x7FEFFFFFFFFFFFFF / 2 ^ 52 % 2 ^ 11 < 2047)) ∧
    (finValue false 1 0 + finValue true 3 0 ≠ 0 ∧ finValue false 1 0 + finValue true 1 0 = 0) ∧
    canonical64 (2 ^ 53 - 1) 971 ∧ canonical64 1 (-1074) := by
  refine ⟨by decide, ?_, ?_, ?_⟩ <;> norm_num [finValue, canonical64]

/-- A radius that is too large, an image whose second pixel is the first with a NaN, and one without. -/
theorem witness_GaussEvaluatesEveryPixel :
    let nan (x : Inputs) (r c : Nat) := ∃ ch, ch < 3 ∧ gaussAccumulator x x.ops.gaussR.toNat r c ch = .nan
    let a := (blurIs 16 [] square).inputs
    let b := (blurIs 0 [0x7FF0000000000000] (greys [[5, 0]])).inputs
    let c := (blurIs 0 [0x3FE0000000000000] (picture [[(5, 6, 7)]])).inputs
    a.ops.gaussR.toNat > square.cfg.gaussRmax ∧
    (b.ops.gaussR.toNat ≤ square.cfg.gaussRmax ∧ 0 < b.h ∧ 1 < b.w ∧ nan b 0 1 ∧
      ∀ r' c', r' < b.h → c' < b.w → r' * b.w + c' < 0 * b.w + 1 → ¬ nan b r' c') ∧
    (c.ops.gaussR.toNat ≤ square.cfg.gaussRmax ∧ ∀ r' c', r' < c.h → c' < c.w → ¬ nan c r' c') := by
  have hb : ∀ ch, ch < 3 → gaussAccumulator (blurIs 0 [0x7FF0000000000000] (greys [[5, 0]])).inputs 0 0 0 ch ≠ .nan := by
    decide +kernel
  have hc : ∀ ch, ch < 3 →
      gaussAccumulator (blurIs 0 [0x3FE0000000000000] (picture [[(5, 6, 7)]])).inputs 0 0 0 ch ≠ .nan := by decide +kernel
  refine ⟨by decide +kernel, ⟨by decide +kernel, by decide +kernel, by decide +kernel, ⟨0, by decide, by decide +kernel⟩, ?_⟩,
    by decide +kernel, ?_⟩
  · rintro r' c' hr - hlt ⟨ch, hch, hn⟩
    have hw : (blurIs 0 [0x7FF0000000000000] (greys [[5, 0]])).inputs.w = 2 := by decide +kernel
    rw [hw] at hlt
    obtain ⟨rfl, rfl⟩ : r' = 0 ∧ c' = 0 := by omega
    exact hb ch hch hn
  · rintro r' c' hr hc' ⟨ch, hch, hn⟩
    obtain rfl : r' = 0 := Nat.lt_one_iff.1 hr
    obtain rfl : c' = 0 := Nat.lt_one_iff.1 hc'
    exact hc ch hch hn

theorem witness_GaussUnitKernelIsTheIdentity :
    let s := blurIs 0 [0x3FF0000000000000] square
    s.engine = none ∧ s.ops.gaussR = 0 ∧ s.inputs.gwBits 0 = 0x3FF0000000000000 := by decide +kernel

theorem witness_Crc32CommandSetsCrcOut :
    let a := (srcIs (2 ^ 24) 1 square).inputs
    let b := (srcIs (2 ^ 24) 0 square).inputs
    a.srcAddr + a.srcLen > square.cfg.bmBytes ∧ b.srcAddr + b.srcLen ≤ square.cfg.bmBytes := by decide +kernel

theorem witness_CrcDetectsAChangedByte : (0xAA : Byte) ≠ 0xAB := by decide

theorem idat_inner (data : List Byte) (h : data.length < 2 ^ 32) : (Chunk.mk typeIdat data).inner :=
  ⟨rfl, (by decide : ∀ b ∈ typeIdat, isLetter b = true), (by decide : typeIdat ≠ typeIend), h⟩

/-- V-PNG-1 with DST_CAP one less than the IDAT bytes, and with just enough. -/
theorem witness_PngParseReadsALegalStream : ∀ cap, cap = 2 ∨ cap = 3 →
    let chunks : List Chunk := [⟨typeIdat, [0xAA, 0xBB, 0xCC]⟩]
    let x := (dstIs 0x100 cap (pngState png1 60)).inputs
    let idat := (chunks.filter fun c => c.ty == typeIdat).flatMap Chunk.data
    x.srcAddr + x.srcLen ≤ State.reset.cfg.bmBytes ∧ x.dstAddr + x.dstCap ≤ State.reset.cfg.bmBytes ∧ ¬ x.overlap ∧
    (∀ c ∈ chunks, c.inner) ∧ (0 : Nat) < 2 ^ 32 ∧
    sourceStarts x (pngSignature ++ (ihdrChunk 1 1).bytes ++ chunks.flatMap Chunk.bytes
      ++ (Chunk.mk typeIend []).bytes) ∧ (cap = 2 → idat.length > x.dstCap) ∧ (cap = 3 → idat.length ≤ x.dstCap) := by
  rintro cap (rfl | rfl) <;>
  refine ⟨by decide +kernel, by decide +kernel, by decide +kernel, ?_, by decide, ?_, by decide +kernel,
    by decide +kernel⟩ <;>
  first
  | (intro c hc; obtain rfl := List.mem_singleton.1 hc; exact idat_inner _ (by decide))
  | exact ⟨by decide +kernel, by decide +kernel⟩

/-- V-PNG-1 and its damaged copies: for IHDR and for the chunk after it, length and type missing, a digit as a type byte
(V-PNG-10), the CRC missing (V-PNG-9 for IEND), and a flipped bit under the CRC (V-PNG-3). -/
theorem witness_PngParseRejectsABadChunk :
    let later : Option (Word × Word × List Chunk) := some (1, 1, [])
    let legal (x : Inputs) (before : Option (Word × Word × List Chunk)) :=
      (x.srcAddr + x.srcLen ≤ State.reset.cfg.bmBytes ∧ x.dstAddr + x.dstCap ≤ State.reset.cfg.bmBytes ∧ ¬ x.overlap) ∧
        sourceStarts x (pngBefore before)
    let next (x : Inputs) (pos : Nat) := pos + 12 + chunkLength x pos
    let cut (len : Nat) := (pngState png1 len).inputs
    let changed (at' v : Nat) := (pngState (png1.set at' v) 60).inputs
    ((pngBefore none).length = 8 ∧ (pngBefore later).length = 33 ∧ ∀ c ∈ ([] : List Chunk), c.inner) ∧
    ((legal (cut 15) none ∧ (cut 15).srcLen < 8 + 8) ∧ (legal (cut 40) later ∧ (cut 40).srcLen < 33 + 8)) ∧
    ((legal (changed 14 0x31) none ∧ 8 + 8 ≤ (changed 14 0x31).srcLen ∧ ¬ chunkTyped (changed 14 0x31) 8) ∧
      (legal (changed 38 0x31) later ∧ 33 + 8 ≤ (changed 38 0x31).srcLen ∧ ¬ chunkTyped (changed 38 0x31) 33)) ∧
    ((legal (cut 32) none ∧ 8 + 8 ≤ (cut 32).srcLen ∧ chunkTyped (cut 32) 8 ∧ (cut 32).srcLen < next (cut 32) 8) ∧
      (legal (cut 47) later ∧ 33 + 8 ≤ (cut 47).srcLen ∧ chunkTyped (cut 47) 33 ∧ (cut 47).srcLen < next (cut 47) 33)) ∧
    ((legal (changed 19 0x81) none ∧ next (changed 19 0x81) 8 ≤ (changed 19 0x81).srcLen ∧
        chunkTyped (changed 19 0x81) 8 ∧ ¬ chunkCrcMatches (changed 19 0x81) 8) ∧
      (legal (changed 41 0xAB) later ∧ next (changed 41 0xAB) 33 ≤ (changed 41 0xAB).srcLen ∧
        chunkTyped (changed 41 0xAB) 33 ∧ ¬ chunkCrcMatches (changed 41 0xAB) 33)) := by
  refine ⟨⟨by decide +kernel, by decide +kernel, by simp⟩, ⟨?_, ?_⟩, ⟨?_, ?_⟩, ⟨?_, ?_⟩, ⟨?_, ?_⟩⟩ <;>
  exact ⟨⟨by decide +kernel, by decide +kernel, by decide +kernel⟩, by decide +kernel⟩

/-- The signature and a first chunk with these data bytes and the CRC it should have. -/
def firstChunk (ty : List Byte) (data : List Nat) : State :=
  let c : Chunk := ⟨ty, data.map (BitVec.ofNat 8)⟩
  pngState ((pngSignature ++ c.bytes).map BitVec.toNat) (20 + data.length)

/-- The data of V-PNG-1's IHDR with one byte changed. -/
def ihdrWith (at' v : Nat) : State := firstChunk typeIhdr ([0, 0, 0, 1, 0, 0, 0, 1, 8, 6, 0, 0, 0].set at' v)

/-- A state for each check up to the meaning of the first chunk. -/
theorem witness_PngParseChecksWindowsSignatureAndIhdr :
    let bound := State.reset.cfg.bmBytes
    let out := (srcIs (2 ^ 24) 1 State.reset).inputs
    let dst := (dstIs (2 ^ 24) 1 State.reset).inputs
    let lap := (dstIs 59 1 (pngState png1 60)).inputs
    let short := (pngState png1 7).inputs
    let sig := (pngState (png1.set 7 0x0B) 8).inputs
    let windows (x : Inputs) := x.srcAddr + x.srcLen ≤ bound ∧ x.dstAddr + x.dstCap ≤ bound
    let share (x : Inputs) :=
      x.srcLen > 0 ∧ x.dstCap > 0 ∧ x.srcAddr < x.dstAddr + x.dstCap ∧ x.dstAddr < x.srcAddr + x.srcLen
    let c5 (x : Inputs) := (((windows x ∧ ¬ share x) ∧ 8 ≤ x.srcLen) ∧
      (∀ k, k < 8 → x.src k = [137, 80, 78, 71, 13, 10, 26, 10].getD k 0) ∧ 8 + 12 + chunkLength x 8 ≤ x.srcLen ∧
      chunkTyped x 8 ∧ chunkCrcMatches x 8)
    let isIhdr (x : Inputs) := (∀ k, k < 4 → x.src (12 + k) = [0x49, 0x48, 0x44, 0x52].getD k 0) ∧ chunkLength x 8 = 13
    let accepted (x : Inputs) (j : Nat) := x.src (24 + j) = [8, 6, 0, 0, 0].getD j 0
    (¬ (out.srcAddr + out.srcLen ≤ bound) ∧ (dst.srcAddr + dst.srcLen ≤ bound ∧ ¬ windows dst) ∧
      (windows lap ∧ share lap) ∧ ((windows short ∧ ¬ share short) ∧ short.srcLen < 8) ∧
      (((windows sig ∧ ¬ share sig) ∧ 8 ≤ sig.srcLen) ∧
        (7 < 8 ∧ sig.src 7 ≠ [137, 80, 78, 71, 13, 10, 26, 10].getD 7 0))) ∧
    ((c5 (firstChunk typeIend []).inputs ∧ ¬ isIhdr (firstChunk typeIend []).inputs) ∧
      (c5 (firstChunk typeIhdr [0]).inputs ∧ ¬ isIhdr (firstChunk typeIhdr [0]).inputs)) ∧
    ((c5 (ihdrWith 8 16).inputs ∧ isIhdr (ihdrWith 8 16).inputs ∧ ¬ accepted (ihdrWith 8 16).inputs 0) ∧
      (c5 (ihdrWith 12 1).inputs ∧ isIhdr (ihdrWith 12 1).inputs ∧ ¬ accepted (ihdrWith 12 1).inputs 4 ∧
        ∀ i, i < 4 → accepted (ihdrWith 12 1).inputs i)) := by
  refine ⟨?_, ⟨⟨?_, ?_⟩, ⟨?_, ?_⟩⟩, ⟨?_, ?_, ?_⟩, ⟨?_, ?_, ?_⟩⟩ <;> decide +kernel

/-- The greatest type and byte values, and a point for each branch of Paeth. -/
theorem witness_PredictorsOfEveryType :
    let d (a b c v : Nat) : Nat := ((a : Int) + b - c - v).natAbs
    (4 ≤ 4 ∧ 255 ≤ 255 ∧ 0 ≤ 255) ∧
    (d 10 10 0 10 ≤ d 10 10 0 10 ∧ d 10 10 0 10 ≤ d 10 10 0 0) ∧
    (¬ (d 10 20 10 10 ≤ d 10 20 10 20 ∧ d 10 20 10 10 ≤ d 10 20 10 10) ∧ d 10 20 10 20 ≤ d 10 20 10 10) ∧
    (¬ (d 0 20 10 0 ≤ d 0 20 10 20 ∧ d 0 20 10 0 ≤ d 0 20 10 10) ∧ ¬ d 0 20 10 20 ≤ d 0 20 10 10) := by decide

theorem witness_FilterWritesEveryScanline :
    let a := (dstIs (2 ^ 24 - 13) 14 square).inputs
    let b := (dstIs (2 ^ 24 - 13) 13 square).inputs
    let c := (dstIs (2 ^ 24 - 14) 14 square).inputs
    a.dstAddr + a.dstCap > square.cfg.bmBytes ∧ (c.dstAddr + c.dstCap ≤ square.cfg.bmBytes ∧ 5 > 4) ∧
    (b.dstAddr + b.dstCap ≤ square.cfg.bmBytes ∧ 4 ≤ 4 ∧ b.h * (1 + 3 * b.w) > b.dstCap) ∧
    (c.dstAddr + c.dstCap ≤ square.cfg.bmBytes ∧ 4 ≤ 4 ∧ c.h * (1 + 3 * c.w) ≤ c.dstCap ∧ 1 < c.h ∧ 5 < 3 * c.w) := by
  decide +kernel

/-- A state for each clause of SL_DEFILTER; the last is V-SL-4. -/
theorem witness_DefilterReconstructsEveryScanline :
    let bound := State.reset.cfg.bmBytes
    let out := (srcIs (2 ^ 24) 1 State.reset).inputs
    let cells := (dimIs 2049 2048 State.reset).inputs
    let short := (dimIs 2 2 (srcIs 0 13 State.reset)).inputs
    let ty := (dimIs 2 2 (srcIs 0 14 (bytes 0 (mixed.set 7 5) State.reset))).inputs
    let full := (dimIs 2 2 (srcIs 0 14 (bytes 0 mixed State.reset))).inputs
    let c1 (x : Inputs) := x.srcAddr + x.srcLen ≤ bound
    let fits (x : Inputs) :=
      x.dimH ≤ 2 ^ 31 - 1 ∧ x.dimW ≤ 2 ^ 31 - 1 ∧ x.dimH * x.dimW ≤ State.reset.cfg.pbCells
    let need (x : Inputs) := x.dimH * (1 + 3 * x.dimW)
    let typeOf (x : Inputs) (i : Nat) := (x.src (i * (1 + 3 * x.dimW))).toNat
    ¬ c1 out ∧ (c1 cells ∧ ¬ fits cells) ∧ (c1 short ∧ fits short ∧ short.srcLen < need short) ∧
    (c1 ty ∧ fits ty ∧ need ty ≤ ty.srcLen ∧ 1 < ty.dimH ∧ typeOf ty 1 > 4 ∧ ∀ k, k < 1 → typeOf ty k ≤ 4) ∧
    (c1 full ∧ fits full ∧ need full ≤ full.srcLen ∧ ∀ i, i < full.dimH → typeOf full i ≤ 4) := by decide +kernel

theorem witness_FilterThenDefilterIsTheIdentity : (0 ≤ 4 ∧ 4 ≤ 4) ∧ ready.Inv ∧ ready.engine = none ∧
    ready.inputs.dstAddr + ready.inputs.dstCap ≤ ready.cfg.bmBytes ∧
    ready.inputs.h * (1 + 3 * ready.inputs.w) ≤ ready.inputs.dstCap ∧
    exec (.slFilter 0) ready = .next (result (.slFilter 0) ready) ∧
    exec (.slFilter 4) ready = .next (result (.slFilter 4) ready) :=
  ⟨by decide, ready_inv, rfl, by decide +kernel, by decide +kernel, rfl, rfl⟩

theorem witness_PassesPartitionEveryImage : (1 ≤ 1 ∧ 1 ≤ 7) ∧ (1 ≤ 7 ∧ 7 ≤ 7) := by decide

/-- 2 x 2 has the passes 1, 6 and 7. -/
theorem witness_SplitWritesTheSubImages :
    let a := (dstIs (2 ^ 24 - 11) 12 square).inputs
    let b := (dstIs (2 ^ 24 - 11) 11 square).inputs
    let c := (dstIs (2 ^ 24 - 12) 12 square).inputs
    a.dstAddr + a.dstCap > square.cfg.bmBytes ∧
    (b.dstAddr + b.dstCap ≤ square.cfg.bmBytes ∧ 3 * b.h * b.w > b.dstCap) ∧
    (c.dstAddr + c.dstCap ≤ square.cfg.bmBytes ∧ 3 * c.h * c.w ≤ c.dstCap ∧ 7 ≤ 7 ∧ 0 < passH 7 c.h ∧
      1 < passW 7 c.w) := by decide +kernel

/-- A state for each clause of A7_MERGE; the source of the last is the output of A7_SPLIT. -/
theorem witness_MergeBuildsFromThePasses :
    let bound := State.reset.cfg.bmBytes
    let split := run 0x60 fourPixels
    let out := (srcIs (2 ^ 24) 1 State.reset).inputs
    let cells := (dimIs 2049 2048 State.reset).inputs
    let dims := (dimIs 2 3 (srcIs 0 12 split)).inputs
    let short := (dimIs 2 2 (srcIs 0 11 split)).inputs
    let full := (dimIs 2 2 (srcIs 0 12 split)).inputs
    let c1 (x : Inputs) := x.srcAddr + x.srcLen ≤ bound
    let fits (x : Inputs) :=
      x.dimH ≤ 2 ^ 31 - 1 ∧ x.dimW ≤ 2 ^ 31 - 1 ∧ x.dimH * x.dimW ≤ State.reset.cfg.pbCells
    let dimOk (x : Inputs) (p : Nat) := x.a7ph p = passH p x.dimH ∧ x.a7pw p = passW p x.dimW
    ¬ c1 out ∧ (c1 full ∧ ¬ (1 ≤ 0 ∧ 0 ≤ 7) ∧ ¬ (1 ≤ 8 ∧ 8 ≤ 7)) ∧ (c1 cells ∧ 1 ≤ 7 ∧ 7 ≤ 7 ∧ ¬ fits cells) ∧
    (c1 dims ∧ fits dims ∧ 1 ≤ 4 ∧ 4 ≤ 7 ∧ ¬ dimOk dims 4 ∧ ∀ q, q < 4 → 1 ≤ q → dimOk dims q) ∧
    (c1 short ∧ fits short ∧ (∀ p, p < 8 → 1 ≤ p → dimOk short p) ∧
      short.srcLen < passOffset short.dimH short.dimW 8) ∧
    (c1 full ∧ fits full ∧ (∀ p, p < 8 → 1 ≤ p → dimOk full p) ∧ passOffset full.dimH full.dimW 8 ≤ full.srcLen ∧
      0 < passH 7 full.dimH ∧ 1 < passW 7 full.dimW) := by decide +kernel

theorem witness_SplitThenMergeKeepsThePasses : (1 ≤ 1 ∧ 1 ≤ 7) ∧ (1 ≤ 7 ∧ 7 ≤ 7) ∧ ready.Inv ∧ ready.engine = none ∧
    ready.inputs.dstAddr + ready.inputs.dstCap ≤ ready.cfg.bmBytes ∧
    3 * ready.inputs.h * ready.inputs.w ≤ ready.inputs.dstCap ∧ exec .a7Split ready = .next (result .a7Split ready) ∧
    1 < ready.pb.h.toNat ∧ 1 < ready.pb.w.toNat :=
  ⟨by decide, by decide, ready_inv, rfl, by decide +kernel, by decide +kernel, rfl, by decide +kernel, by decide +kernel⟩

end Sys2Proof.Tests
end

/-! SUPPORT. How a command can end: in `done`, with at most PB, BM and the operand and result registers written, or in
one error with nothing written. -/

namespace Sys2Proof.Machine

/-- The two ways a command ends (00_scope.md R13, 60_exceptions.md R503). -/
inductive CommandEnd (s : State) : Out → Prop
  | done (pb : PixelBuffer) (bm : Memory Byte) (ops : Operands) (res : Results) :
      CommandEnd s (State.ok { s with pb := pb, bm := bm, ops := ops, res := res })
  | failed (e : CmdError) : CommandEnd s (s.fail e)

namespace CommandEnd

variable {s : State}

/-- One check in front of the rest of a command. -/
theorem check {c : Prop} [Decidable c] {e : CmdError} {out : Out} (h : CommandEnd s out) :
    CommandEnd s (if c then s.fail e else out) := by
  split
  · exact .failed e
  · exact h

theorem ok : CommandEnd s s.ok := .done s.pb s.bm s.ops s.res

theorem ok_setImage (p : PixelBuffer) : CommandEnd s (s.setImage p).ok := .done p s.bm s.ops s.res

theorem ok_buildImage (h w : Nat) (offset : Word) (pixels : List Pixel) :
    CommandEnd s (s.buildImage h w offset pixels).ok := ok_setImage _

theorem ok_paint (pixels : List Pixel) : CommandEnd s (s.paint pixels).ok := ok_setImage _

theorem ok_emit (dst n : Nat) (out : List Byte) : CommandEnd s (s.emit dst n out).ok := .done s.pb _ s.ops _

/-- Either way, what no command writes stays. -/
theorem frame {t : State} (h : CommandEnd s (.next t)) : CommandFrame s t := by
  generalize ho : Host.Outcome.next t = out at h
  cases h with
  | done pb bm ops res => cases ho; exact (commit_frame s pb bm ops res).toCommandFrame
  | failed e => cases ho; exact raise_frame s e

end CommandEnd

theorem execPbBlackout_end (s : State) : CommandEnd s (execPbBlackout s) := by
  simp only [execPbBlackout]
  split
  · exact .check (.ok_setImage _)
  · exact .ok

theorem execGauss_end (s : State) : CommandEnd s (execGauss s) := by
  refine .check ?_
  split
  · exact .failed _
  · exact .ok_paint _

theorem execPngParse_end (s : State) : CommandEnd s (execPngParse s) := by
  refine .check (.check (.check ?_))
  split
  · exact .failed _
  · exact .check (.done s.pb _ s.ops _)

theorem execSlDefilter_end (s : State) : CommandEnd s (execSlDefilter s) := by
  refine .check (.check (.check ?_))
  split
  · exact .failed _
  · exact .ok_buildImage ..

theorem execA7Merge_end (n : Nat) (s : State) : CommandEnd s (execA7Merge n s) := by
  refine .check (.check (.check ?_))
  split
  · exact .failed _
  · exact .check (.ok_buildImage ..)

/-- Every command runs its checks and then commits one of PB, BM and the registers it owns. -/
theorem exec_end (i : Instr) (s : State) : CommandEnd s (exec i s) := by
  cases i with
  | nop => exact .ok
  | pbClear => exact .ok_setImage _
  | pbAlloc => exact .check (.ok_setImage _)
  | pbLoadRgb => exact .check (.check (.check (.ok_buildImage ..)))
  | pbStoreRgb => exact .check (.check (.ok_emit ..))
  | pbBlackout => exact execPbBlackout_end s
  | pbGrey | pbGreyLuma | pbColorMask | pbSepia | pbReflectH | pbReflectV | conv3 _ | edges => exact .ok_paint _
  | bmpDecode => exact .check (.check (.check (.check (.check (.check (.check (.check (.done _ s.bm s.ops _))))))))
  | bmpEncode => exact .check (.check (.ok_emit ..))
  | gauss => exact execGauss_end s
  | pngParse => exact execPngParse_end s
  | crc32 => exact .check (.done s.pb s.bm s.ops _)
  | slFilter t => exact .check (.check (.check (.ok_emit ..)))
  | slDefilter => exact execSlDefilter_end s
  | a7Split => exact .check (.check (.done s.pb _ _ _))
  | a7Merge n => exact execA7Merge_end n s

/-- The completion step of any word: a command's end, or the error of an illegal word (30_encoding.md R142). -/
theorem runCommand_end (w : Word) (s : State) : CommandEnd s (runCommand w s) := by
  unfold runCommand
  split
  · exact exec_end _ s
  · exact .failed _

/-- What no command writes stays over the completion step of any word. -/
theorem runCommand_frame {w : Word} {s t : State} (h : runCommand w s = .next t) : CommandFrame s t :=
  (h ▸ runCommand_end w s).frame

end Sys2Proof.Machine

/-! SUPPORT. What one host access answers: the refused, the unmapped and the served ones, and CTRL. -/

namespace Sys2Proof.Machine

theorem writeCtrl_of_srst (s : State) {v : Word} (h : v.getLsbD 1 = true) : s.writeCtrl v = s.softReset := if_pos h

theorem writeCtrl_of_not_srst (s : State) {v : Word} (h : v.getLsbD 1 = false) :
    s.writeCtrl v = { s with ie := v.getLsbD 0 } := if_neg (Bool.eq_false_iff.mp h)

/-- A register write that R560 serves while BUSY = 1 is served at any time (70_reset_and_hazards.md R560). -/
theorem busWrite_allowed (s : State) {r : RegName} {v : Word} (hr : writableWhileBusy (.reg r) v = true) :
    s.busWrite r.addr v 0xF = s.writeReg r v := by
  simp [State.busWrite, partialRegWrite, hr, State.writeTarget]

/-- A CTRL write with SRST = 0 sets IE at any time (10_state.md R33, 70_reset_and_hazards.md R560). -/
theorem busWrite_ctrl (s : State) {v : Word} (h : v.getLsbD 1 = false) :
    s.busWrite RegName.ctrl.addr v 0xF = { s with ie := v.getLsbD 0 } := by
  rw [busWrite_allowed s (by rw [writableWhileBusy, h, Bool.not_false]), State.writeReg, writeCtrl_of_not_srst s h]

/-- A register that is not writable while BUSY = 1 refuses the write with HAZ (70_reset_and_hazards.md R560). -/
theorem busWrite_refused {s : State} (hb : s.busy = true) {r : RegName} {v : Word}
    (hr : writableWhileBusy (.reg r) v = false) : s.busWrite r.addr v 0xF = s.setHaz := by
  simp [State.busWrite, partialRegWrite, hb, hr]

/-- A register that is not readable while BUSY = 1 refuses the read with HAZ (70_reset_and_hazards.md R560). -/
theorem busRead_refused {s : State} (hb : s.busy = true) {r : RegName} (hr : readableWhileBusy (.reg r) = false) :
    s.busRead r.addr = { s.setHaz with busData := Config.freeRead s.draws, draws := s.draws + 1 } := by
  simp [State.busRead, hb, hr]

/-- A read of a register while BUSY = 0 (20_memory.md R104, R106). -/
theorem busRead_addr {s : State} (hb : s.busy = false) (r : RegName) :
    s.busRead r.addr = { s.readEffect (.reg r) with busData := s.readReg r } := by
  simp [State.busRead, hb, State.readTarget]

/-- A misaligned or unmapped read (20_memory.md R104 (a), (b)). -/
theorem busRead_unmapped {s : State} {addr : Word} (h : busAccess s.cfg addr = none) :
    s.busRead addr = { s.setBuserr with busData := 0 } := by
  simp [State.busRead, h]

/-- A misaligned or unmapped write (20_memory.md R104 (a), (b)). -/
theorem busWrite_unmapped {s : State} {addr : Word} (h : busAccess s.cfg addr = none) (data : Word)
    (strobe : BitVec 4) : s.busWrite addr data strobe = s.setBuserr := by
  simp [State.busWrite, h]

/-- The one side effect a served read can have (20_memory.md R106). -/
theorem readEffect_cases (t : Target) (s : State) : s.readEffect t = s ∨ s.readEffect t = s.setPixerr := by
  unfold State.readEffect
  split
  · exact ite_eq_or_eq ..
  all_goals exact .inl rfl

/-- A read of the pixel port outside the image (40_pixelbuffer.md R240). -/
theorem readEffect_pixData_outside {s : State} (h : ¬ s.pixIn) : s.readEffect (.reg .pixData) = s.setPixerr := if_neg h

/-- A write of the pixel port outside the image (40_pixelbuffer.md R241). -/
theorem writePixel_outside {s : State} (h : ¬ s.pixIn) (v : Word) : s.writePixel v = s.setPixerr := if_neg h

/-- A poll of `wait` reads STATUS, and puts back at most the host's list. -/
theorem poll_status (s : State) : s.poll.status = (s.busRead RegName.status.addr).status := by
  simp only [State.poll]
  split <;> rfl

end Sys2Proof.Machine

/-! SUPPORT. Everything that one event of the host can make of STATUS and ERR_INFO. -/

namespace Sys2Proof.Machine

/-- STATUS after one event of the host: as before, one sticky flag set, or one of the four writes and resets that clear
fields (10_state.md R35 to R37, 70_reset_and_hazards.md R551). -/
inductive StatusEffect (s : State) : HostEvent → Status → Prop
  | kept (ev : HostEvent) : StatusEffect s ev s.status
  | haz (ev : HostEvent) : StatusEffect s ev { s.status with haz := true }
  | buserr (ev : HostEvent) : StatusEffect s ev { s.status with buserr := true }
  | pixerr (ev : HostEvent) : StatusEffect s ev { s.status with pixerr := true }
  | w1c (v : Word) : StatusEffect s (.write RegName.status.addr v 0xF) (s.status.w1c v)
  | accepted (v : Word) (hb : s.busy = false) : StatusEffect s (.write RegName.cmd.addr v 0xF) s.status.accepted
  | softReset (v : Word) (hb : s.busy = false) (hv : v.getLsbD 1 = true) :
      StatusEffect s (.write RegName.ctrl.addr v 0xF) Status.reset
  | hardReset : StatusEffect s .hardReset Status.reset

theorem busRead_statusEffect (s : State) (addr : Word) (ev : HostEvent) :
    StatusEffect s ev (s.busRead addr).status := by
  unfold State.busRead
  split
  · exact .buserr ev
  next t _ =>
  split
  · exact .haz ev
  · rcases readEffect_cases t s with h | h <;> rw [h]
    · exact .kept ev
    · exact .pixerr ev

/-- A register write that is served, so one of those R560 allows if BUSY = 1. -/
theorem writeReg_statusEffect (s : State) (r : RegName) (v : Word)
    (hs : s.busy = true → writableWhileBusy (.reg r) v = true) :
    StatusEffect s (.write r.addr v 0xF) (s.writeReg r v).status := by
  have idle (h : writableWhileBusy (.reg r) v = false) : s.busy = false := by simpa [h] using hs
  cases r with
  | status => exact .w1c v
  | cmd => exact .accepted v (idle rfl)
  | ctrl =>
    rw [State.writeReg]
    cases hv : v.getLsbD 1 with
    | true =>
      rw [writeCtrl_of_srst s hv]
      exact .softReset v (idle (by simp only [writableWhileBusy, hv, Bool.not_true])) hv
    | false =>
      rw [writeCtrl_of_not_srst s hv]
      exact .kept _
  | pixData =>
    rw [State.writeReg, State.writePixel]
    split
    · exact .kept _
    · exact .pixerr _
  | _ => exact .kept _

theorem busWrite_statusEffect (s : State) (addr data : Word) (strobe : BitVec 4) :
    StatusEffect s (.write addr data strobe) (s.busWrite addr data strobe).status := by
  unfold State.busWrite
  split
  · exact .buserr _
  next t ht =>
  split
  · exact .buserr _
  next hp =>
  split
  · exact .haz _
  next hs =>
  cases t with
  | gw o => exact .kept _
  | bm o => exact .kept _
  | reg r =>
    obtain rfl := eq_addr_of_busAccess ht
    obtain rfl : strobe = 0xF := by simpa [partialRegWrite] using hp
    exact writeReg_statusEffect s r data (by simpa using hs)

theorem serve_statusEffect (s : State) (ev : HostEvent) : StatusEffect s ev (State.serve ev s).status := by
  cases ev with
  | read addr => exact busRead_statusEffect s addr _
  | write addr data strobe => exact busWrite_statusEffect s addr data strobe
  | wait =>
    rw [State.serve, poll_status]
    exact busRead_statusEffect s _ _
  | hardReset => exact .hardReset

namespace StatusEffect

variable {s : State} {ev : HostEvent} {st : Status}

/-- Only acceptance and the resets touch ERR_CLASS and ERR_DETAIL (10_state.md R36). -/
theorem errFields (h : StatusEffect s ev st) (hev : ¬ endsErrorReport s ev) :
    st.errClass = s.status.errClass ∧ st.errDetail = s.status.errDetail := by
  cases h with
  | kept | haz | buserr | pixerr | w1c => exact ⟨rfl, rfl⟩
  | accepted v hb => exact absurd (.inl ⟨hb, v, rfl⟩) hev
  | softReset v hb hv => exact absurd (.inr (.inl ⟨hb, v, hv, rfl⟩)) hev
  | hardReset => exact absurd (.inr (.inr rfl)) hev

/-- Only a W1C write and the resets clear a sticky flag (10_state.md R37). -/
theorem sticky (h : StatusEffect s ev st) :
    (¬ clearsSticky s 3 ev → s.status.haz = true → st.haz = true) ∧
    (¬ clearsSticky s 4 ev → s.status.buserr = true → st.buserr = true) ∧
    (¬ clearsSticky s 5 ev → s.status.pixerr = true → st.pixerr = true) := by
  cases h with
  | kept | accepted => exact ⟨fun _ h => h, fun _ h => h, fun _ h => h⟩
  | haz => exact ⟨fun _ _ => rfl, fun _ h => h, fun _ h => h⟩
  | buserr => exact ⟨fun _ h => h, fun _ _ => rfl, fun _ h => h⟩
  | pixerr => exact ⟨fun _ h => h, fun _ h => h, fun _ _ => rfl⟩
  | w1c v =>
    have spared {bit : Nat} (hc : ¬ clearsSticky s bit (.write RegName.status.addr v 0xF)) : v.getLsbD bit = false :=
      Bool.eq_false_of_not_eq_true fun hv => hc (.inl ⟨v, hv, rfl⟩)
    exact ⟨fun hc h => by rw [Status.w1c_haz, h, spared hc]; rfl,
      fun hc h => by rw [Status.w1c_buserr, h, spared hc]; rfl,
      fun hc h => by rw [Status.w1c_pixerr, h, spared hc]; rfl⟩
  | softReset v hb hv =>
    have clears (bit : Nat) : clearsSticky s bit (.write RegName.ctrl.addr v 0xF) := .inr (.inl ⟨hb, v, hv, rfl⟩)
    exact ⟨fun hc => absurd (clears 3) hc, fun hc => absurd (clears 4) hc, fun hc => absurd (clears 5) hc⟩
  | hardReset =>
    have clears (bit : Nat) : clearsSticky s bit .hardReset := .inr (.inr rfl)
    exact ⟨fun hc => absurd (clears 3) hc, fun hc => absurd (clears 4) hc, fun hc => absurd (clears 5) hc⟩

end StatusEffect

end Sys2Proof.Machine

/-! SUPPORT. The fields of the word STATUS reads as (10_state.md R34). -/

namespace Sys2Proof.Machine

/-- A bit of a word, from the word's number. -/
theorem getLsbD_of_toNat {w : Word} {i : Nat} {b : Bool} (h : w.toNat / 2 ^ i % 2 = b.toNat) : w.getLsbD i = b := by
  rw [BitVec.getLsbD, Nat.testBit_eq_decide_div_mod_eq, h]
  cases b <;> rfl

/-- A field of a word, from the word's number. -/
theorem extractLsb'_of_toNat {w : Word} {i n : Nat} {v : BitVec n} (h : w.toNat / 2 ^ i % 2 ^ n = v.toNat) :
    w.extractLsb' i n = v :=
  BitVec.eq_of_toNat_eq (by rw [BitVec.extractLsb'_toNat, Nat.shiftRight_eq_div_pow, h])

/-- The layout of R34: no field of the sum reaches into the next one. -/
theorem Status.word_fields (busy : Bool) (st : Status) :
    let w := st.word busy
    (w.getLsbD 0 = busy ∧ w.getLsbD 1 = st.done ∧ w.getLsbD 2 = st.err ∧ w.getLsbD 3 = st.haz ∧
      w.getLsbD 4 = st.buserr ∧ w.getLsbD 5 = st.pixerr) ∧
    (w.extractLsb' 8 4 = st.errClass ∧ w.extractLsb' 16 8 = st.errDetail) ∧
    w.extractLsb' 6 2 = 0 ∧ w.extractLsb' 12 4 = 0 ∧ w.extractLsb' 24 8 = 0 := by
  intro w
  have h0 := busy.toNat_lt
  have h1 := st.done.toNat_lt
  have h2 := st.err.toNat_lt
  have h3 := st.haz.toNat_lt
  have h4 := st.buserr.toNat_lt
  have h5 := st.pixerr.toNat_lt
  have hc := st.errClass.isLt
  have hd := st.errDetail.isLt
  have hw : w.toNat = busy.toNat + 2 * st.done.toNat + 4 * st.err.toNat + 8 * st.haz.toNat + 16 * st.buserr.toNat
      + 32 * st.pixerr.toNat + 2 ^ 8 * st.errClass.toNat + 2 ^ 16 * st.errDetail.toNat :=
    Nat.mod_eq_of_lt (by omega)
  refine ⟨⟨getLsbD_of_toNat ?_, getLsbD_of_toNat ?_, getLsbD_of_toNat ?_, getLsbD_of_toNat ?_, getLsbD_of_toNat ?_,
    getLsbD_of_toNat ?_⟩, ⟨extractLsb'_of_toNat ?_, extractLsb'_of_toNat ?_⟩, extractLsb'_of_toNat ?_,
    extractLsb'_of_toNat ?_, extractLsb'_of_toNat ?_⟩
  all_goals rw [hw]
  iterate 8 omega
  all_goals simp only [BitVec.ofNat_eq_ofNat, BitVec.toNat_ofNat]; omega

end Sys2Proof.Machine

/-! The obligations of 10_state.md. -/

namespace Sys2Proof.Machine

/-- Settles O16: the word's fields, and one lemma per kind of write. -/
theorem ctrlAndStatusFields : Obligations.CtrlAndStatusFields := by
  refine ⟨fun s => ?_, busWrite_status, fun s v hb => ⟨busWrite_ctrl s, fun hv => ?_, ?_, rfl⟩⟩
  · obtain ⟨⟨hbusy, hdone, herr, hhaz, hbuserr, hpixerr⟩, ⟨hclass, hdetail⟩, h6, h12, h24⟩ :=
      s.status.word_fields s.busy
    exact ⟨hbusy, hdone, herr, hhaz, hbuserr, hpixerr, h6, hclass, h12, hdetail, h24⟩
  · exact ⟨(busWrite_addr hb .ctrl v).trans (writeCtrl_of_srst s hv), rfl⟩
  · rw [State.readReg]
    cases s.ie <;> rfl

/-- Settles O17, by the cases of what a host event makes of STATUS. -/
theorem errorFieldsHoldUntilTheNextCommand : Obligations.ErrorFieldsHoldUntilTheNextCommand := by
  refine ⟨fun s ev hev => (serve_statusEffect s ev).errFields hev, fun s v hv => ?_⟩
  rw [busWrite_status]
  exact ⟨by rw [Status.w1c_done, hv, Bool.not_true, Bool.and_false], rfl, rfl⟩

/-- Settles O18, by the cases of what a host event makes of STATUS and by the frame of every completion. -/
theorem stickyFlagsFallOnlyByWriteOrReset : Obligations.StickyFlagsFallOnlyByWriteOrReset := by
  refine ⟨fun s ev => (serve_statusEffect s ev).sticky, fun s t w h => ?_, fun s v => ?_,
    fun s addr data strobe => ⟨fun h => ?_, fun hb => ?_, fun hb hp => ?_⟩⟩
  · have f := runCommand_frame h
    exact ⟨f.haz, f.buserr, f.pixerr⟩
  · rw [busWrite_status]
    refine ⟨fun hv => ?_, fun hv => ?_, fun hv => ?_⟩ <;> simp [hv]
  · rw [busRead_unmapped h, busWrite_unmapped h]
    exact ⟨rfl, rfl⟩
  · rw [busRead_refused hb rfl, busWrite_refused hb rfl]
    exact ⟨rfl, rfl⟩
  · rw [busRead_addr hb, busWrite_addr hb, readEffect_pixData_outside hp, State.writeReg, writePixel_outside hp]
    exact ⟨rfl, rfl⟩

/-- Settles O21: with BUSY = 0 the write is State.accept, whose fields are known; with BUSY = 1 it is refused. -/
theorem cmdWriteStartsTheCommand : Obligations.CmdWriteStartsTheCommand := by
  refine fun s w => ⟨fun hb => ?_, fun hb => ⟨busWrite_refused hb rfl, rfl, rfl⟩⟩
  rw [busWrite_addr hb, State.writeReg]
  simp [State.readReg]

/-- Settles O25: the completion's frame gives IE and DONE, and each falling event clears one of the two. -/
theorem interruptLevel : Obligations.InterruptLevel := by
  refine ⟨fun _ => rfl, fun s t w h => ?_, fun s v hv => ?_, fun s v hv hie => ?_, fun s w hb => ?_,
    fun s => ⟨rfl, rfl⟩⟩
  · have f := runCommand_frame h
    rw [State.irq, f.done, f.ie, Bool.and_true]
  · rw [busWrite_status]
    simp [State.irq, hv]
  · rw [busWrite_ctrl s hv, hie]
    rfl
  · rw [busWrite_addr hb, State.writeReg, State.irq, State.accept_status, Status.accepted_done, Bool.and_false]

end Sys2Proof.Machine

/-! SUPPORT. The host's accesses of the GW window (20_memory.md R101 to R105): what a word read returns and what a
full-strobe word write leaves, byte by byte, word by word and entry by entry. -/

namespace Sys2Proof.Machine

/-! ### Words of bytes -/

/-- The word of four bytes as a number. -/
theorem laneWord_toNat (f : Nat → Byte) :
    (laneWord f).toNat = (f 0).toNat + 2 ^ 8 * (f 1).toNat + 2 ^ 16 * (f 2).toNat + 2 ^ 24 * (f 3).toNat := by
  have h0 := (f 0).isLt
  have h1 := (f 1).isLt
  have h2 := (f 2).isLt
  have h3 := (f 3).isLt
  rw [laneWord, BitVec.toNat_ofNat, Nat.mod_eq_of_lt (by omega)]

/-- A word is the word of its own lanes (20_memory.md R105). -/
theorem laneWord_lane (data : Word) : laneWord (lane data) = data := by
  apply BitVec.eq_of_toNat_eq
  have := data.isLt
  simp only [laneWord_toNat, lane, BitVec.extractLsb'_toNat, Nat.shiftRight_eq_div_pow]
  omega

/-- Only the lanes 0 to 3 count. -/
theorem laneWord_congr {f g : Nat → Byte} (h : ∀ k < 4, f k = g k) : laneWord f = laneWord g := by
  rw [laneWord, h 0 (by decide), h 1 (by decide), h 2 (by decide), h 3 (by decide), laneWord]

/-! ### Bytes after a word write -/

/-- A full strobe enables every lane. -/
theorem fullStrobe_getLsbD : ∀ k < 4, (0xF : BitVec 4).getLsbD k = true := by decide

/-- A read of the byte of an enabled lane that the memory has gives that lane (20_memory.md R105). -/
theorem read_writeLanes_on (free : Nat → Nat → Byte) (size o : Nat) (data : Word) (strobe : BitVec 4) {k : Nat}
    (m : Memory Byte) (hk : k < 4) (hs : strobe.getLsbD k = true) (ho : o + k < size) :
    (writeLanes size o data strobe m).read free (o + k) = lane data k := by
  rw [Memory.read, get?_writeLanes_on size o data strobe m hk hs ho, Option.getD_some]

/-- A read of every other byte gives what it gave before. -/
theorem read_writeLanes_off (free : Nat → Nat → Byte) (size o : Nat) (data : Word) (strobe : BitVec 4) {a : Nat}
    (m : Memory Byte) (h : ∀ k, k < 4 → strobe.getLsbD k = true → a ≠ o + k) :
    (writeLanes size o data strobe m).read free a = m.read free a := by
  rw [Memory.read, get?_writeLanes_off size o data strobe m h, writeLanes_epoch, Memory.read]

/-! ### Words of GW -/

/-- The bus word at byte offset `o` of GW, which a served read returns (`State.readTarget`). -/
def gwWord (m : Memory Byte) (o : Nat) : Word := laneWord fun k => gwByte m (o + k)

/-- A word written with full strobe reads back. -/
theorem gwWord_writeLanes_same {size o : Nat} (data : Word) (m : Memory Byte) (ho : o + 4 ≤ size) :
    gwWord (writeLanes size o data 0xF m) o = data := by
  have hlane : ∀ k < 4, gwByte (writeLanes size o data 0xF m) (o + k) = lane data k := fun k hk =>
    read_writeLanes_on Config.freeGw size o data 0xF m hk (fullStrobe_getLsbD k hk) (by omega)
  rw [gwWord, laneWord_congr hlane, laneWord_lane]

/-- A word that shares no byte with the written one stays. -/
theorem gwWord_writeLanes_apart (size : Nat) {o a : Nat} (data : Word) (strobe : BitVec 4) (m : Memory Byte)
    (h : a + 4 ≤ o ∨ o + 4 ≤ a) : gwWord (writeLanes size o data strobe m) a = gwWord m a :=
  laneWord_congr fun k hk => read_writeLanes_off Config.freeGw size o data strobe m fun _ _ _ => by omega

/-- Bits [31:0] of entry i are the word at byte offset `8*i`, bits [63:32] the word at `8*i + 4` (20_memory.md R103). -/
theorem gwBits_eq_words (x : Inputs) (i : Nat) : x.gwBits i = gwWord x.gw (8 * i + 4) ++ gwWord x.gw (8 * i) := by
  apply BitVec.eq_of_toNat_eq
  have hlo := (gwWord x.gw (8 * i)).isLt
  have hhi := (gwWord x.gw (8 * i + 4)).isLt
  rw [BitVec.toNat_append, ← Nat.shiftLeft_add_eq_or_of_lt hlo, Nat.shiftLeft_eq]
  rw [Inputs.gwBits, show List.range 8 = [0, 1, 2, 3, 4, 5, 6, 7] from rfl]
  simp only [gwWord, laneWord_toNat, Nat.add_assoc, Nat.reduceAdd, BitVec.toNat_ofNat, List.map_cons, List.map_nil,
    List.sum_cons, List.sum_nil] at hlo hhi ⊢
  omega

/-! ### Host accesses of GW -/

/-- A GW read while BUSY = 0 returns the word and changes nothing else (20_memory.md R103, R106). -/
theorem busRead_gw {s : State} (hb : s.busy = false) {addr : Word} {o : Nat} (h : busAccess s.cfg addr = some (.gw o)) :
    s.busRead addr = { s with busData := gwWord s.gw o } := by
  simp [State.busRead, h, hb, State.readEffect, State.readTarget, gwWord]

/-- A GW write while BUSY = 0 writes the enabled lanes and nothing else (20_memory.md R104). -/
theorem busWrite_gw {s : State} (hb : s.busy = false) {addr : Word} {o : Nat}
    (h : busAccess s.cfg addr = some (.gw o)) (data : Word) (strobe : BitVec 4) :
    s.busWrite addr data strobe = { s with gw := writeLanes (8 * s.cfg.gwEntries) o data strobe s.gw } := by
  simp [State.busWrite, h, partialRegWrite, hb, State.writeTarget]

/-- Above the last entry the window is unmapped (20_memory.md R103). -/
theorem busAccess_above_gw {cfg : Config} {addr : Word} (h : 0x1000 + 8 * cfg.gwEntries ≤ addr.toNat)
    (hbm : addr.toNat < 0x01000000) : busAccess cfg addr = none := by
  simp only [busAccess, busTarget]
  rw [if_neg (show ¬ addr.toNat < 0x1000 by omega), if_pos hbm,
    if_neg (show ¬ addr.toNat < 0x1000 + 8 * cfg.gwEntries by omega), ite_self]

/-- The addresses of an entry's two words lead to its two halves (20_memory.md R101, R103). -/
theorem busAccess_gwEntry {cfg : Config} (hc : cfg.legal) {i : Nat} (hi : i < cfg.gwEntries) :
    busAccess cfg (BitVec.ofNat 32 (0x1000 + 8 * i)) = some (.gw (8 * i)) ∧
    busAccess cfg (BitVec.ofNat 32 (0x1000 + 8 * i + 4)) = some (.gw (8 * i + 4)) := by
  have hsize := gwEntries_le hc
  have hword (o : Nat) (ha : o % 4 = 0) (ho : o < 8 * cfg.gwEntries) :
      busAccess cfg (BitVec.ofNat 32 (0x1000 + o)) = some (.gw o) := by
    have haddr : (BitVec.ofNat 32 (0x1000 + o)).toNat = 0x1000 + o := by
      rw [BitVec.toNat_ofNat, Nat.mod_eq_of_lt (by omega)]
    exact busAccess_gw hc (by omega) haddr ho
  rw [Nat.add_assoc]
  exact ⟨hword _ (by omega) (by omega), hword _ (by omega) (by omega)⟩

/-- Writing both words of entry i stores them at the entry's two halves and changes nothing else (20_memory.md R103,
with `wrgw` of 30_encoding.md R148). -/
theorem busWrite_gwEntry {s : State} (hc : s.cfg.legal) (hb : s.busy = false) {i : Nat} (hi : i < s.cfg.gwEntries)
    (low high : Word) :
    (s.busWrite (BitVec.ofNat 32 (0x1000 + 8 * i)) low 0xF).busWrite (BitVec.ofNat 32 (0x1000 + 8 * i + 4)) high 0xF =
      { s with
        gw := writeLanes (8 * s.cfg.gwEntries) (8 * i + 4) high 0xF
          (writeLanes (8 * s.cfg.gwEntries) (8 * i) low 0xF s.gw) } := by
  obtain ⟨hlow, hhigh⟩ := busAccess_gwEntry hc hi
  rw [busWrite_gw hb hlow]
  apply busWrite_gw
  · exact hb
  · exact hhigh

/-- With no command running, a command would see the live GW. -/
theorem inputs_gw_of_idle {s : State} (hb : s.busy = false) : s.inputs.gw = s.gw := by
  rw [s.inputs_of_idle (Option.isNone_iff_eq_none.mp (Option.isSome_eq_false_iff.mp hb)), State.sample]

end Sys2Proof.Machine

/-! The obligations of 20_memory.md. -/

namespace Sys2Proof.Machine

/-- Settles O14: the two word writes reach the two halves of entry i, and entry by entry GW is a pair of words. -/
theorem gwEntryIsTwoWords : Obligations.GwEntryIsTwoWords := by
  refine ⟨fun _ _ => busAccess_above_gw, fun s i x hc hb hi => ?_⟩
  intro low high t
  obtain ⟨hlow, hhigh⟩ := busAccess_gwEntry hc hi
  have ht : t.inputs.gw = writeLanes (8 * s.cfg.gwEntries) (8 * i + 4) (x.extractLsb' 32 32) 0xF
      (writeLanes (8 * s.cfg.gwEntries) (8 * i) (x.extractLsb' 0 32) 0xF s.gw) := by
    unfold t
    rw [busWrite_gwEntry hc hb hi]
    exact inputs_gw_of_idle hb
  refine ⟨?_, fun j hj => ?_, ?_, ?_⟩
  · rw [gwBits_eq_words, ht, gwWord_writeLanes_same _ _ (by omega), gwWord_writeLanes_apart _ _ _ _ (by omega),
      gwWord_writeLanes_same _ _ (by omega),
      BitVec.extractLsb'_append_extractLsb'_eq_extractLsb' (Nat.zero_add 32).symm]
    exact BitVec.extractLsb'_eq_self
  · have hword (a : Nat) (ha : a = 8 * j ∨ a = 8 * j + 4) : gwWord t.inputs.gw a = gwWord s.inputs.gw a := by
      rw [ht, inputs_gw_of_idle hb, gwWord_writeLanes_apart _ _ _ _ (by omega),
        gwWord_writeLanes_apart _ _ _ _ (by omega)]
    rw [gwBits_eq_words, gwBits_eq_words, hword _ (.inl rfl), hword _ (.inr rfl)]
  · rw [busRead_gw hb hlow, gwBits_eq_words, BitVec.extractLsb'_append_eq_right, inputs_gw_of_idle hb]
  · rw [busRead_gw hb hhigh, gwBits_eq_words, BitVec.extractLsb'_append_eq_left, inputs_gw_of_idle hb]

end Sys2Proof.Machine

/-! SUPPORT. A command word and its fields (30_encoding.md R140): the fields as numbers, and a word put together from
them. -/

namespace Sys2Proof

/-! ### The fields of a word -/

theorem opField_toNat (w : Word) : (opField w).toNat = w.toNat % 256 := by
  rw [opField, BitVec.extractLsb'_toNat, Nat.shiftRight_zero]

theorem optField_eq_ofNat (w : Word) : optField w = BitVec.ofNat 8 (w.toNat / 256) := by
  rw [optField, BitVec.extractLsb', Nat.shiftRight_eq_div_pow]

theorem rsvField_eq_zero_iff (w : Word) : rsvField w = 0 ↔ w.toNat / 65536 = 0 := by
  have hw := w.isLt
  have hrsv : (rsvField w).toNat = w.toNat / 65536 % 65536 := by
    rw [rsvField, BitVec.extractLsb'_toNat, Nat.shiftRight_eq_div_pow]
  rw [← BitVec.toNat_inj, hrsv, show (0 : BitVec 16).toNat = 0 from rfl]
  omega

/-- Two words are equal when their fields are (30_encoding.md R140). -/
theorem word_eq_iff_fields {v w : Word} :
    v = w ↔ opField v = opField w ∧ optField v = optField w ∧ rsvField v = rsvField w := by
  refine ⟨fun h => h ▸ ⟨rfl, rfl, rfl⟩, fun ⟨hop, hopt, hrsv⟩ => ?_⟩
  rw [word_of_fields v, hop, hopt, hrsv, ← word_of_fields w]

@[simp] theorem opField_and (v w : Word) : opField (v &&& w) = opField v &&& opField w := BitVec.extractLsb'_and
@[simp] theorem optField_and (v w : Word) : optField (v &&& w) = optField v &&& optField w := BitVec.extractLsb'_and
@[simp] theorem rsvField_and (v w : Word) : rsvField (v &&& w) = rsvField v &&& rsvField w := BitVec.extractLsb'_and

/-! ### A word of given fields -/

/-- The word with these fields: RSV in [31:16], OPT in [15:8], OP in [7:0] (30_encoding.md R140). -/
def ofFields (rsv : BitVec 16) (opt op : Byte) : Word := rsv ++ (opt ++ op)

section
variable (rsv : BitVec 16) (opt op : Byte)

@[simp] theorem opField_ofFields : opField (ofFields rsv opt op) = op :=
  (BitVec.extractLsb'_append_eq_of_add_le (by decide)).trans BitVec.extractLsb'_append_eq_right

@[simp] theorem optField_ofFields : optField (ofFields rsv opt op) = opt :=
  (BitVec.extractLsb'_append_eq_of_add_le (by decide)).trans BitVec.extractLsb'_append_eq_left

@[simp] theorem rsvField_ofFields : rsvField (ofFields rsv opt op) = rsv := BitVec.extractLsb'_append_eq_left

end

/-- A command word written as a number (30_encoding.md R148). -/
theorem ofNat_eq_ofFields (op : Byte) {opt : Nat} (h : opt < 256) :
    BitVec.ofNat 32 (op.toNat + 256 * opt) = ofFields 0 (BitVec.ofNat 8 opt) op := by
  have hop := op.isLt
  set w : Word := BitVec.ofNat 32 (op.toNat + 256 * opt) with hdef
  have hw : w.toNat = op.toNat + 256 * opt := by rw [hdef, BitVec.toNat_ofNat, Nat.mod_eq_of_lt (by omega)]
  rw [word_eq_iff_fields, opField_ofFields, optField_ofFields, rsvField_ofFields, rsvField_eq_zero_iff,
    optField_eq_ofNat, ← BitVec.toNat_inj, opField_toNat, hw]
  exact ⟨by omega, congrArg _ (by omega), by omega⟩

end Sys2Proof

/-! SUPPORT. The decode order of 30_encoding.md R142, one equation per outcome, in the OP values of R143 and the
LEGAL_OPT of R141. -/

namespace Sys2Proof

/-! ### The rows of R143 -/

theorem opRow_eq_none_iff (op : Byte) : opRow op = none ↔ op.toNat ∉ assignedOps := by
  have hops : assignedOps = opTable.map fun r => r.op.toNat := rfl
  simp [opRow, hops, BitVec.toNat_inj]

theorem legalOpt_eq_legalOptOf : ∀ r ∈ opTable, r.legalOpt = legalOptOf r.op.toNat := by decide

/-- An assigned OP byte leads to its row. -/
theorem exists_opRow {op : Byte} (h : op.toNat ∈ assignedOps) :
    ∃ r ∈ opTable, r.op = op ∧ r.legalOpt = legalOptOf op.toNat ∧ opRow op = some r := by
  cases hr : opRow op with
  | none => exact absurd h ((opRow_eq_none_iff op).mp hr)
  | some r =>
    obtain ⟨hmem, rfl⟩ := opRow_some hr
    exact ⟨r, hmem, rfl, legalOpt_eq_legalOptOf r hmem, rfl⟩

/-- A row builds commands of its own OP byte. -/
theorem op_build (opt : Byte) : ∀ r ∈ opTable, (r.build opt).op = r.op := by
  simp [opTable, Instr.op]

/-- A row's command keeps the legal OPT bits. -/
theorem opt_build (opt : Byte) : ∀ r ∈ opTable, (r.build opt).opt = opt &&& r.legalOpt := by
  have hnorm : ∀ b : Byte, (if b.getLsbD 0 then (1 : Byte) else 0) = b &&& 0x01 := by decide
  have hnumber : opt = opt &&& 0xFF := BitVec.and_allOnes.symm
  simpa [opTable, Instr.opt] using ⟨hnorm opt, hnumber⟩

/-- A byte without a bit outside a mask is kept by it. -/
theorem and_eq_of_and_not_eq_zero {b mask : Byte} (h : b &&& ~~~ mask = 0) : b &&& mask = b := by
  calc b &&& mask = b &&& mask ||| b &&& ~~~ mask := by rw [h]; exact BitVec.or_zero.symm
    _ = b := by rw [← BitVec.and_or_distrib_left, BitVec.or_not_self, BitVec.and_allOnes]

theorem op_mem_assignedOps (i : Instr) : i.op.toNat ∈ assignedOps := by
  cases i <;> simp [Instr.op, assignedOps]

/-! ### The decode order of R142 -/

variable {w : Word}

/-- R142: "if op not in the table of rule R143". -/
theorem decode_of_unassigned (h : (opField w).toNat ∉ assignedOps) : decode w = .error .opcode := by
  rw [decode, (opRow_eq_none_iff _).mpr h]

/-- R142: "if rsv != 0" and "if (opt and not LEGAL_OPT(op)) != 0". -/
theorem decode_of_reservedBits (hop : (opField w).toNat ∈ assignedOps)
    (h : rsvField w ≠ 0 ∨ optField w &&& ~~~ legalOptOf (opField w).toNat ≠ 0) :
    decode w = .error .reservedBits := by
  obtain ⟨r, -, -, hlegal, hr⟩ := exists_opRow hop
  simp only [decode, hr, hlegal]
  split
  · rfl
  · next hrsv => exact if_pos (h.resolve_left hrsv)

/-- R142: a word without a fault selects the command of its row. -/
theorem decode_of_opRow {r : OpRow} (hr : opRow (opField w) = some r) (hrsv : rsvField w = 0)
    (hopt : optField w &&& ~~~ r.legalOpt = 0) : decode w = .ok (r.build (optField w)) := by
  simp [decode, hr, hrsv, hopt]

/-- R142: a word without a fault selects a command with its OP and OPT bytes. -/
theorem exists_decode_of_legal (hop : (opField w).toNat ∈ assignedOps) (hrsv : rsvField w = 0)
    (hopt : optField w &&& ~~~ legalOptOf (opField w).toNat = 0) :
    ∃ i : Instr, i.op = opField w ∧ i.opt = optField w ∧ decode w = .ok i := by
  obtain ⟨r, hmem, hrop, hlegal, hr⟩ := exists_opRow hop
  rw [← hlegal] at hopt
  exact ⟨r.build (optField w), (op_build _ r hmem).trans hrop,
    (opt_build _ r hmem).trans (and_eq_of_and_not_eq_zero hopt), decode_of_opRow hr hrsv hopt⟩

/-- A word that decodes has the OP byte of its command, no OPT bit outside LEGAL_OPT and RSV = 0. -/
theorem fields_of_decode {i : Instr} (h : decode w = .ok i) :
    opField w = i.op ∧ optField w &&& ~~~ legalOptOf i.op.toNat = 0 ∧ rsvField w = 0 := by
  obtain ⟨hrsv, r, hmem, hrop, hopt, rfl⟩ := decode_ok h
  rw [op_build _ r hmem, ← legalOpt_eq_legalOptOf r hmem]
  exact ⟨hrop.symm, hopt, hrsv⟩

/-- A row with an OPT number decodes every OPT byte, written as a number (30_encoding.md R141). -/
theorem decode_ofNat {op : Byte} {r : OpRow} (hr : opRow op = some r) (hlegal : r.legalOpt = 0xFF) {opt : Nat}
    (h : opt < 256) : decode (BitVec.ofNat 32 (op.toNat + 256 * opt)) = .ok (r.build (BitVec.ofNat 8 opt)) := by
  have hopt : optField (ofFields 0 (BitVec.ofNat 8 opt) op) &&& ~~~ r.legalOpt = 0 := by
    rw [hlegal]
    exact BitVec.and_zero
  rw [ofNat_eq_ofFields op h, decode_of_opRow (by rwa [opField_ofFields]) (rsvField_ofFields ..) hopt, optField_ofFields]

theorem decode_slFilter {t : Nat} (h : t < 256) : decode (BitVec.ofNat 32 (0x50 + 256 * t)) = .ok (.slFilter t) := by
  simpa [Nat.mod_eq_of_lt h] using decode_ofNat (op := 0x50) rfl rfl h

theorem decode_a7Merge {n : Nat} (h : n < 256) : decode (BitVec.ofNat 32 (0x61 + 256 * n)) = .ok (.a7Merge n) := by
  simpa [Nat.mod_eq_of_lt h] using decode_ofNat (op := 0x61) rfl rfl h

/-! ### MATCH and MASK -/

/-- A row of R144: MATCH is the OP byte alone, and MASK has every bit but the legal OPT bits. -/
theorem matchMask_eq (i : Instr) :
    matchMask i = (ofFields 0 0 i.op, ofFields (BitVec.allOnes 16) (~~~ legalOptOf i.op.toNat) (BitVec.allOnes 8)) := by
  cases i <;> simp [matchMask, Instr.op, legalOptOf, ofFields]

/-- `(w and MASK) == MATCH` says that w has the OP byte, no OPT bit outside LEGAL_OPT and RSV = 0 (30_encoding.md
R144). -/
theorem and_mask_eq_match_iff (w : Word) (i : Instr) : w &&& (matchMask i).2 = (matchMask i).1 ↔
    opField w = i.op ∧ optField w &&& ~~~ legalOptOf i.op.toNat = 0 ∧ rsvField w = 0 := by
  rw [matchMask_eq, word_eq_iff_fields]
  simp only [opField_and, optField_and, rsvField_and, opField_ofFields, optField_ofFields, rsvField_ofFields,
    BitVec.and_allOnes]

end Sys2Proof

/-! SUPPORT. How the completion step answers a decoded word, an illegal word and an OPT number out of range. -/

namespace Sys2Proof.Machine

theorem runCommand_of_ok {w : Word} {i : Instr} (s : State) (h : decode w = .ok i) : runCommand w s = exec i s := by
  rw [runCommand, h]

theorem runCommand_of_error {w : Word} {e : DecodeError} (s : State) (h : decode w = .error e) :
    runCommand w s = .next (s.raise (illegalError w e)) := by
  rw [runCommand, h]
  rfl

/-- ERR_INFO of an illegal word is the word, which never saturates (60_exceptions.md R501). -/
theorem errInfo_illegalError (w : Word) (e : DecodeError) : (illegalError w e).errInfo = w := by
  have hinfo : (illegalError w e).info = w.toNat := by cases e <;> rfl
  have hw := w.isLt
  rw [CmdError.errInfo, hinfo, Nat.min_eq_left (by omega), BitVec.ofNat_toNat, BitVec.setWidth_eq]

/-- A filter type above 4 ends in class RANGE: the window check before it is of that class too (44_scanline.md R410). -/
theorem exec_slFilter_of_four_lt {t : Nat} (s : State) (h : t > 4) :
    ∃ e : CmdError, e.errClass = 3 ∧ exec (.slFilter t) s = .next (s.raise e) := by
  by_cases hdst : s.inputs.dstOut s.cfg
  · exact ⟨.bmBounds 1, rfl, if_pos hdst⟩
  · exact ⟨.filterType t, rfl, (if_neg hdst).trans (if_pos h)⟩

/-- A pass count outside 1..7 ends in class RANGE: the window check before it is of that class too (45_adam7.md
R462). -/
theorem exec_a7Merge_of_not_pass {n : Nat} (s : State) (h : n < 1 ∨ n > 7) :
    ∃ e : CmdError, e.errClass = 3 ∧ exec (.a7Merge n) s = .next (s.raise e) := by
  by_cases hsrc : s.inputs.srcOut s.cfg
  · exact ⟨.bmBounds 0, rfl, if_pos hsrc⟩
  · exact ⟨.passCount n, rfl, (if_neg hsrc).trans (if_pos h)⟩

end Sys2Proof.Machine

/-! The obligations of 30_encoding.md. -/

namespace Sys2Proof.Machine

/-- Settles O3: matching a row and decoding to one of its commands both say the same of the three fields. -/
theorem matchAndMaskSelectTheCommand : Obligations.MatchAndMaskSelectTheCommand := by
  refine ⟨fun w i h => ?_, fun w i h => (and_mask_eq_match_iff w i).mpr (fields_of_decode h),
    fun t s hrange hbyte => ⟨decode_slFilter hbyte, exec_slFilter_of_four_lt s hrange⟩,
    fun n s hrange hbyte => ⟨decode_a7Merge hbyte, exec_a7Merge_of_not_pass s (by omega)⟩⟩
  obtain ⟨hop, hopt, hrsv⟩ := (and_mask_eq_match_iff w i).mp h
  have hmem : (opField w).toNat ∈ assignedOps := hop ▸ op_mem_assignedOps i
  obtain ⟨j, hj, -, hdecode⟩ := exists_decode_of_legal hmem hrsv (by rwa [hop])
  exact ⟨j, hdecode, by rw [matchMask_eq, matchMask_eq, hj, hop]⟩

/-- Settles O4: one equation of the decoder for each of the three cases, and the frame of a raise. -/
theorem decodeOrderAndIllegalWords : Obligations.DecodeOrderAndIllegalWords := by
  intro w s op opt rsv
  have hop : (opField w).toNat = op := opField_toNat w
  have hopt : optField w = opt := optField_eq_ofNat w
  have hrsv : rsvField w = 0 ↔ rsv = 0 := rsvField_eq_zero_iff w
  clear_value op opt rsv
  subst hop hopt
  refine ⟨fun hmem => ?_, fun hmem hbits => ?_, fun hmem hzero hlegal => ?_, fun e => ⟨rfl, rfl, rfl⟩⟩
  · exact ⟨runCommand_of_error s (decode_of_unassigned hmem), rfl, rfl, errInfo_illegalError w .opcode⟩
  · have hbits' := hbits.imp_left hrsv.not.mpr
    exact ⟨runCommand_of_error s (decode_of_reservedBits hmem hbits'), rfl, rfl, errInfo_illegalError w .reservedBits⟩
  · obtain ⟨i, hi, hiopt, hdecode⟩ := exists_decode_of_legal hmem (hrsv.mpr hzero) hlegal
    exact ⟨i, congrArg _ hi, hiopt, hdecode, runCommand_of_ok s hdecode⟩

end Sys2Proof.Machine

/-! SUPPORT. The pixel port while BUSY = 0 (40_pixelbuffer.md R240, R241): the word and the pixel of an access, and what
a served access of PIX_DATA does in the image. -/

namespace Sys2Proof.Machine

/-- The word of a pixel is its channels on the byte lanes 0 to 2, and 0 on lane 3. -/
theorem Pixel.word_eq_append (p : Pixel) : p.word = 0x00#8 ++ p.b ++ p.g ++ p.r := by
  have hlanes : p.word = laneWord fun | 0 => p.r | 1 => p.g | 2 => p.b | _ => 0 := by simp [Pixel.word, laneWord]
  exact hlanes.trans (laneWord_append _)

/-- Bits [31:24] of the written word are ignored (40_pixelbuffer.md R241). -/
theorem Pixel.ofWord_eq (v : Word) :
    Pixel.ofWord v = ⟨v.extractLsb' 0 8, v.extractLsb' 8 8, v.extractLsb' 16 8⟩ := by
  have hchannel (k : Nat) (hk : k + 8 ≤ 24) : (v.setWidth 24).extractLsb' k 8 = v.extractLsb' k 8 :=
    BitVec.extractLsb'_setWidth_of_le hk
  rw [Pixel.ofWord, Pixel.ofBits, hchannel 0 (by decide), hchannel 8 (by decide), hchannel 16 (by decide)]

/-- A read of the pixel port in the image has no side effect (40_pixelbuffer.md R240). -/
theorem readEffect_pixData_inside {s : State} (h : s.pixIn) : s.readEffect (.reg .pixData) = s := if_pos h

theorem readReg_pixData_inside {s : State} (h : s.pixIn) :
    s.readReg .pixData = (s.pb.px s.pixRow.toNat s.pixCol.toNat).word := if_pos h

theorem readReg_pixData_outside {s : State} (h : ¬ s.pixIn) : s.readReg .pixData = 0 := if_neg h

/-- The one cell of a write of one pixel. -/
theorem cell_write_same (p : PixelBuffer) (i : Nat) (q : Pixel) :
    PixelBuffer.cell { p with cells := p.cells.write i [q] } i = q :=
  Memory.read_write_inside (k := 0) _ p.cells [q] Nat.one_pos

/-- A write of one pixel leaves every other cell. -/
theorem cell_write_other (p : PixelBuffer) {i j : Nat} (q : Pixel) (hj : j ≠ i) :
    PixelBuffer.cell { p with cells := p.cells.write i [q] } j = p.cell j :=
  Memory.read_write_outside _ p.cells [q] (by rw [List.length_singleton]; omega)

/-- A write of the pixel port in the image writes one cell (40_pixelbuffer.md R241). -/
theorem writePixel_inside {s : State} (h : s.pixIn) (v : Word) :
    s.writePixel v = { s with pb := { s.pb with
      cells := s.pb.cells.write (s.pixRow.toNat * s.pb.w.toNat + s.pixCol.toNat) [Pixel.ofWord v] } } := if_pos h

end Sys2Proof.Machine

/-! SUPPORT. The lists and cells that the pixel buffer commands write: a fixed number of items per element of a list, an
emitted byte, and the rows of PB_BLACKOUT. -/

namespace Sys2Proof.Machine

/-- When every element gives `n` items, item `k` of element `i` stands at index `i * n + k`. -/
theorem flatMap_getElem? {β γ : Type} (l : List β) (f : β → List γ) {n : Nat} (hf : ∀ b, (f b).length = n) (i : Nat)
    {k : Nat} (hk : k < n) : (l.flatMap f)[i * n + k]? = l[i]?.bind fun b => (f b)[k]? := by
  induction l generalizing i with
  | nil => rfl
  | cons b l ih =>
    rw [List.flatMap_cons]
    cases i with
    | zero => rw [Nat.zero_mul, Nat.zero_add, List.getElem?_append_left (by rwa [hf]), List.getElem?_cons_zero,
        Option.bind_some]
    | succ i =>
      have hindex : (i + 1) * n + k - n = i * n + k := by rw [Nat.succ_mul]; omega
      rw [List.getElem?_append_right (by rw [hf, Nat.succ_mul]; omega), hf, hindex, ih, List.getElem?_cons_succ]

/-- Byte `k` of the pixel (r, c) in the flat RGB stream of an image (20_memory.md R108). -/
theorem image_bytes_getElem? (x : Inputs) (f : Nat → Nat → Pixel) {r c k : Nat} (hr : r < x.h) (hc : c < x.w)
    (hk : k < 3) : ((x.image f).flatMap Pixel.bytes)[3 * (r * x.w + c) + k]? = (f r c).bytes[k]? := by
  rw [Nat.mul_comm, flatMap_getElem? (n := 3) _ _ (fun _ => rfl) _ hk, Inputs.image, gridOf_at f hr hc,
    Option.bind_some]

/-- An emitted byte, by its index in the output. -/
theorem emit_byte_of_getElem? (s : State) (dst n : Nat) {out : List Byte} {k : Nat} {b : Byte} (h : out[k]? = some b) :
    bmByte (s.emit dst n out).bm (dst + k) = b := by
  obtain ⟨hk, hb⟩ := List.getElem?_eq_some_iff.mp h
  rw [emit_byte s dst n out hk, hb]

/-- The pixels of a built grid, by row and column of the new image. -/
theorem build_grid_px (s : State) (offset : Word) {h w r c : Nat} (f : Nat → Nat → Pixel) (hword : w < 2 ^ 32)
    (hr : r < h) (hc : c < w) : (s.buildImage h w offset (gridOf h w f)).pb.px r c = f r c := by
  rw [PixelBuffer.px, State.buildImage_pb, BitVec.toNat_ofNat, Nat.mod_eq_of_lt hword]
  exact build_grid_at s offset f hr hc

/-- One row of PB_BLACKOUT: the cells of row `r` at the columns [c0, c1), and no other cell of the grid. -/
theorem read_write_blackRow (free : Nat → Nat → Pixel) {w c0 c1 : Nat} (hc : c1 ≤ w) (r : Nat) (m : Memory Pixel)
    {i j : Nat} (hj : j < w) :
    (m.write (r * w + c0) (List.replicate (c1 - c0) ⟨0, 0, 0⟩)).read free (i * w + j) =
      if i = r ∧ c0 ≤ j ∧ j < c1 then ⟨0, 0, 0⟩ else m.read free (i * w + j) := by
  split
  · next h =>
    obtain ⟨rfl, hlo, hhi⟩ := h
    have hcell : i * w + j = i * w + c0 + (j - c0) := by omega
    rw [hcell, Memory.read_write_inside free m _ (by rw [List.length_replicate]; omega), List.getElem_replicate]
  · next h =>
    refine Memory.read_write_outside free m _ (Classical.by_contradiction fun hin => h ?_)
    rw [List.length_replicate] at hin
    obtain ⟨d, hd⟩ : ∃ d, i * w + j = r * w + d ∧ c0 ≤ d ∧ d < c1 := ⟨i * w + j - r * w, by omega⟩
    obtain ⟨hcell, hlo, hhi⟩ := hd
    have hrow : i = r := by rw [← index_div (r := i) hj, hcell, index_div (by omega)]
    subst hrow
    omega

/-- The rows of PB_BLACKOUT: the pixels of the rectangle, and no other cell of the grid (40_pixelbuffer.md R210). -/
theorem read_blackRows (free : Nat → Nat → Pixel) {w c0 c1 : Nat} (hc : c1 ≤ w) (r n : Nat) (m : Memory Pixel)
    {i j : Nat} (hj : j < w) :
    (blackRows w c0 c1 r n m).read free (i * w + j) =
      if r ≤ i ∧ i < r + n ∧ c0 ≤ j ∧ j < c1 then ⟨0, 0, 0⟩ else m.read free (i * w + j) := by
  induction n generalizing r m with
  | zero => rw [blackRows, if_neg (by omega)]
  | succ n ih =>
    rw [blackRows, ih, read_write_blackRow free hc r m hj]
    by_cases hrow : i = r
    · subst hrow
      rw [if_neg (by omega)]
      exact if_congr (by omega) rfl rfl
    · rw [if_neg (fun h : i = r ∧ _ => hrow h.1)]
      exact if_congr (by omega) rfl rfl

/-- Rows above `h` leave every cell past an image of `h` rows. -/
theorem read_blackRows_outside (free : Nat → Nat → Pixel) {w c0 c1 r n h : Nat} (hw : 0 < w) (hc : c1 ≤ w)
    (hr : r + n ≤ h) (m : Memory Pixel) {i : Nat} (hi : h * w ≤ i) :
    (blackRows w c0 c1 r n m).read free i = m.read free i := by
  have hrow : h ≤ i / w := (Nat.le_div_iff_mul_le hw).mpr hi
  rw [← Nat.div_add_mod' i w, read_blackRows free hc r n m (Nat.mod_lt i hw), if_neg (by omega)]

end Sys2Proof.Machine

/-! SUPPORT. How the commands of 40_pixelbuffer.md §3 end once their checks have passed. -/

namespace Sys2Proof.Machine

/-- Within the limits of 10_state.md R62. -/
theorem not_overCapacity_iff {cfg : Config} {h w : Nat} :
    ¬ overCapacity cfg h w ↔ h ≤ 2 ^ 31 - 1 ∧ w ≤ 2 ^ 31 - 1 ∧ h * w ≤ cfg.pbCells := by
  simp only [overCapacity, not_or, gt_iff_lt, not_lt]

variable {s : State}

/-- PB_ALLOC within the limits (40_pixelbuffer.md R206). -/
theorem exec_pbAlloc_done (h : ¬ overCapacity s.cfg s.inputs.dimH s.inputs.dimW) :
    exec .pbAlloc s = (s.setImage ⟨s.inputs.ops.dimH, s.inputs.ops.dimW, 54,
      s.pb.cells.forget (s.inputs.dimH * s.inputs.dimW)⟩).ok := if_neg h

/-- PB_LOAD_RGB with its three checks passed (40_pixelbuffer.md R207). -/
theorem exec_pbLoadRgb_done (hsrc : ¬ s.inputs.srcOut s.cfg) (hcap : ¬ overCapacity s.cfg s.inputs.dimH s.inputs.dimW)
    (hlen : ¬ s.inputs.srcLen < 3 * s.inputs.dimH * s.inputs.dimW) :
    exec .pbLoadRgb s = (s.buildImage s.inputs.dimH s.inputs.dimW 54 (gridOf s.inputs.dimH s.inputs.dimW fun r c =>
      s.inputs.srcRgb (3 * (r * s.inputs.dimW + c)))).ok :=
  (if_neg hsrc).trans ((if_neg hcap).trans (if_neg hlen))

/-- PB_STORE_RGB with its two checks passed (40_pixelbuffer.md R208). -/
theorem exec_pbStoreRgb_done (hdst : ¬ s.inputs.dstOut s.cfg) (hcap : ¬ 3 * s.inputs.h * s.inputs.w > s.inputs.dstCap) :
    exec .pbStoreRgb s = (s.emit s.inputs.dstAddr (3 * s.inputs.h * s.inputs.w)
      ((s.inputs.image s.inputs.px).flatMap Pixel.bytes)).ok :=
  (if_neg hdst).trans (if_neg hcap)

end Sys2Proof.Machine

/-! The obligations of 40_pixelbuffer.md. -/

namespace Sys2Proof.Machine

/-- Settles O22: the port's accesses while BUSY = 1 are refused; while BUSY = 0 the read is the pixel's four lanes and
the write is a write of one cell. -/
theorem pixelPortReadsAndWrites : Obligations.PixelPortReadsAndWrites := by
  refine ⟨fun s v hb => ⟨⟨_, _, busRead_refused hb rfl⟩, busWrite_refused hb rfl⟩, fun s v hb => ⟨fun hrow hcol => ?_,
    fun hout => ?_⟩⟩
  · have hin : s.pixIn := ⟨hrow, hcol⟩
    rw [busRead_addr hb, readEffect_pixData_inside hin, readReg_pixData_inside hin, Pixel.word_eq_append,
      busWrite_addr hb, State.writeReg, writePixel_inside hin, ← Pixel.ofWord_eq]
    refine ⟨rfl, ?_, ?_, fun i hi => ?_, rfl⟩
    · exact cell_write_same s.pb _ _
    · exact Option.isSome_of_eq_some (Memory.get?_write_inside (k := 0) _ [Pixel.ofWord v] Nat.one_pos)
    · exact cell_write_other s.pb _ hi
  · rw [busRead_addr hb, readEffect_pixData_outside hout, readReg_pixData_outside hout, busWrite_addr hb,
      State.writeReg, writePixel_outside hout]
    exact ⟨rfl, rfl⟩

/-- Settles O27: PB_CLEAR commits an image with the old cells. -/
theorem clearMakesTheEmptyImage : Obligations.ClearMakesTheEmptyImage :=
  ⟨by decide, fun s => ⟨_, rfl, setImage_frame s _, rfl, rfl, rfl, rfl, rfl⟩⟩

/-- Settles O28: PB_ALLOC forgets the cells of the new image and no other. -/
theorem allocMakesUndefinedCells : Obligations.AllocMakesUndefinedCells := by
  refine ⟨by decide, fun s => ⟨fun hover => if_pos hover, fun hh hw hc =>
    ⟨_, exec_pbAlloc_done (not_overCapacity_iff.mpr ⟨hh, hw, hc⟩), setImage_frame s _, rfl, rfl, rfl, fun i hi => ?_,
      fun i hi => ?_⟩⟩⟩
  · exact (Memory.get?_forget _ _ i).trans (if_pos hi)
  · exact (Memory.get?_forget _ _ i).trans (if_neg (Nat.not_lt.mpr hi))

/-- Settles O29: the checks in their order, and the built grid cell by cell. -/
theorem loadRgbBuildsTheImage : Obligations.LoadRgbBuildsTheImage := by
  refine ⟨by decide, fun s => ?_⟩
  intro x fits need
  refine ⟨fun hsrc => if_pos hsrc, fun hsrc hfits => ?_, fun hsrc hfits hlen => ?_, fun hsrc hfits hlen => ?_⟩
  all_goals have hin : ¬ x.srcOut s.cfg := Nat.not_lt.mpr hsrc
  · have hover : overCapacity s.cfg x.dimH x.dimW := Decidable.not_not.mp fun h => hfits (not_overCapacity_iff.mp h)
    exact (if_neg hin).trans (if_pos hover)
  · exact (if_neg hin).trans ((if_neg (not_overCapacity_iff.mpr hfits)).trans (if_pos hlen))
  · have hword (v : Word) : BitVec.ofNat 32 v.toNat = v := (BitVec.ofNat_toNat 32 v).trans (BitVec.setWidth_eq v)
    exact ⟨_, exec_pbLoadRgb_done hin (not_overCapacity_iff.mpr hfits) (Nat.not_lt.mpr hlen), buildImage_frame ..,
      hword _, hword _, rfl, fun r c hr hc => build_grid_px s 54 _ x.ops.dimW.isLt hr hc,
      fun i hi => build_grid_outside s 54 _ hi⟩

/-- Settles O30: the checks in their order, and the emitted stream byte by byte. -/
theorem storeRgbWritesTheImage : Obligations.StoreRgbWritesTheImage := by
  refine ⟨by decide, fun s => ?_⟩
  intro x n
  refine ⟨fun hdst => if_pos hdst, fun hdst hcap => (if_neg (Nat.not_lt.mpr hdst)).trans (if_pos hcap),
    fun hdst hcap => ?_⟩
  have hlen : ((x.image x.px).flatMap Pixel.bytes).length = n := by
    rw [flatMap_bytes_length, image_length, ← Nat.mul_assoc]
  refine ⟨_, exec_pbStoreRgb_done (Nat.not_lt.mpr hdst) (Nat.not_lt.mpr hcap), emit_frame s hlen, rfl, rfl,
    fun r c hr hc => ?_⟩
  have hbyte (k : Nat) (hk : k < 3) := image_bytes_getElem? x x.px hr hc hk
  intro k
  exact ⟨emit_byte_of_getElem? s x.dstAddr n (hbyte 0 (by decide)),
    emit_byte_of_getElem? s x.dstAddr n (hbyte 1 (by decide)),
    emit_byte_of_getElem? s x.dstAddr n (hbyte 2 (by decide))⟩

/-- Settles O31: the command's two tests, and the rows it writes cell by cell. -/
theorem blackoutZeroesTheRectangle : Obligations.BlackoutZeroesTheRectangle := by
  refine ⟨by decide, fun s => ?_⟩
  intro x r0 r1 c0 c1
  refine ⟨fun hr hc hout => (if_pos ⟨hr, hc⟩).trans (if_pos hout), fun hempty => ?_, fun hr hc hh hw => ?_⟩
  · exact ⟨_, if_neg (show ¬ (r0 < r1 ∧ c0 < c1) by omega), setImage_frame s s.pb, rfl⟩
  · have hrows : r0 + (r1 - r0) = r1 := by omega
    refine ⟨_, (if_pos ⟨hr, hc⟩).trans (if_neg (show ¬ (r1 > x.h ∨ c1 > x.w) by omega)), ?_, fun r c _ hcol => ?_⟩
    · exact { setImage_frame s _ with
        pbH := rfl, pbW := rfl, offset := rfl
        outside := fun i hi => read_blackRows_outside _ (by omega) hw (hrows.trans_le hh) _ hi }
    · rw [← hrows]
      exact read_blackRows _ hw r0 (r1 - r0) _ hcol

end Sys2Proof.Machine

/-! SUPPORT. How CRC32 ends once its check has passed, and the CRC-32 values that 43_png_chunk.md gives. -/

namespace Sys2Proof.Machine

/-- CRC32 with its source window inside BM (43_png_chunk.md R370). -/
theorem exec_crc32_done {s : State} (h : ¬ s.inputs.srcOut s.cfg) :
    exec .crc32 s =
      (s.setResults { s.res with crcOut := crc32Of (s.inputs.srcBytes 0 s.inputs.srcLen) }).ok := if_neg h

/-- The bytes of the source window are those of BM from SRC_ADDR on (20_memory.md R110). -/
theorem srcBytes_zero (x : Inputs) (n : Nat) :
    x.srcBytes 0 n = (List.range n).map fun k => bmByte x.bm (x.srcAddr + k) := by
  simp only [Inputs.srcBytes, Inputs.src, Nat.zero_add]

/-- The CRC register of no bytes is its start value, which the final inversion takes to 0 (43_png_chunk.md R370). -/
theorem crc32Of_nil : crc32Of [] = 0 := BitVec.xor_self

/-- The CRC of an IEND chunk with no data, of its four type bytes alone (43_png_chunk.md R357). -/
theorem crc32Of_typeIend : crc32Of typeIend = 0xAE426082 := by decide +kernel

/-- The check value of CRC-32, over the ASCII digits 1 to 9 (43_png_chunk.md R370). -/
theorem crc32Of_digits :
    crc32Of [0x31, 0x32, 0x33, 0x34, 0x35, 0x36, 0x37, 0x38, 0x39] = 0xCBF43926 := by decide +kernel

end Sys2Proof.Machine

/-! The obligations of 43_png_chunk.md. -/

namespace Sys2Proof.Machine

/-- Settles O48: the command's one check, the commit of CRC_OUT alone, and the three CRC values. -/
theorem crc32CommandSetsCrcOut : Obligations.Crc32CommandSetsCrcOut := by
  refine ⟨by decide, fun s => ⟨fun hout => if_pos hout, fun hin => ?_⟩, crc32Of_nil, crc32Of_typeIend, crc32Of_digits⟩
  rw [← srcBytes_zero]
  exact ⟨_, exec_crc32_done (Nat.not_lt.mpr hin), commit_frame s s.pb s.bm s.ops _, rfl, rfl, rfl, rfl⟩

end Sys2Proof.Machine

/-! SUPPORT. Which candidate Paeth returns, and how large a prediction can be (44_scanline.md R402, R403). -/

namespace Sys2Proof.Machine

/-- The distance |p - v| of a candidate v from p = a + b - c (44_scanline.md R403). -/
def paethDist (a b c v : Nat) : Nat := ((a : Int) + b - c - v).natAbs

theorem paeth_of_left {a b c : Nat}
    (h : paethDist a b c a ≤ paethDist a b c b ∧ paethDist a b c a ≤ paethDist a b c c) : paeth a b c = a := if_pos h

theorem paeth_of_above {a b c : Nat}
    (ha : ¬ (paethDist a b c a ≤ paethDist a b c b ∧ paethDist a b c a ≤ paethDist a b c c))
    (hb : paethDist a b c b ≤ paethDist a b c c) : paeth a b c = b := (if_neg ha).trans (if_pos hb)

theorem paeth_of_corner {a b c : Nat}
    (ha : ¬ (paethDist a b c a ≤ paethDist a b c b ∧ paethDist a b c a ≤ paethDist a b c c))
    (hb : ¬ paethDist a b c b ≤ paethDist a b c c) : paeth a b c = c := (if_neg ha).trans (if_neg hb)

/-- Every outcome of Paeth: the returned candidate is strictly nearer to p than each candidate preferred to it on a tie. -/
theorem paeth_cases (a b c : Nat) :
    (paeth a b c = a ∧ paethDist a b c a ≤ paethDist a b c b ∧ paethDist a b c a ≤ paethDist a b c c) ∨
    (paeth a b c = b ∧ paethDist a b c b < paethDist a b c a ∧ paethDist a b c b ≤ paethDist a b c c) ∨
    (paeth a b c = c ∧ paethDist a b c c < paethDist a b c a ∧ paethDist a b c c < paethDist a b c b) := by
  by_cases ha : paethDist a b c a ≤ paethDist a b c b ∧ paethDist a b c a ≤ paethDist a b c c
  · exact .inl ⟨paeth_of_left ha, ha⟩
  · by_cases hb : paethDist a b c b ≤ paethDist a b c c
    · exact .inr (.inl ⟨paeth_of_above ha hb, by omega, hb⟩)
    · exact .inr (.inr ⟨paeth_of_corner ha hb, by omega, Nat.lt_of_not_le hb⟩)

/-- Paeth minimises the distance to p over the three candidates. -/
theorem paethDist_paeth_le (a b c : Nat) :
    paethDist a b c (paeth a b c) ≤ paethDist a b c a ∧ paethDist a b c (paeth a b c) ≤ paethDist a b c b ∧
      paethDist a b c (paeth a b c) ≤ paethDist a b c c := by
  obtain ⟨h, hb, hc⟩ | ⟨h, ha, hc⟩ | ⟨h, ha, hb⟩ := paeth_cases a b c <;> rw [h]
  · exact ⟨Nat.le_refl _, hb, hc⟩
  · exact ⟨ha.le, Nat.le_refl _, hc⟩
  · exact ⟨ha.le, hb.le, Nat.le_refl _⟩

theorem paeth_le {a b c m : Nat} (ha : a ≤ m) (hb : b ≤ m) (hc : c ≤ m) : paeth a b c ≤ m := by
  obtain ⟨h, _⟩ | ⟨h, _⟩ | ⟨h, _⟩ := paeth_cases a b c <;> rwa [h]

@[simp] theorem paeth_self (a : Nat) : paeth a a a = a := paeth_of_left ⟨Nat.le_refl _, Nat.le_refl _⟩

/-- No predictor exceeds a bound of its three neighbours, so on bytes each is a byte value. -/
theorem predictor_le (t : Nat) {a b c m : Nat} (ha : a ≤ m) (hb : b ≤ m) (hc : c ≤ m) : predictor t a b c ≤ m := by
  match t with
  | 0 => exact Nat.zero_le m
  | 1 => exact ha
  | 2 => exact hb
  | 3 => exact show (a + b) / 2 ≤ m by omega
  | _ + 4 => exact paeth_le ha hb hc

/-- The Average predictor is the floor of (a + b) / 2 (44_scanline.md R402). -/
theorem predictor_average_bounds (a b c : Nat) :
    2 * predictor 3 a b c ≤ a + b ∧ a + b < 2 * predictor 3 a b c + 2 :=
  ⟨Nat.mul_div_le (a + b) 2, Nat.lt_mul_div_succ (a + b) (by decide)⟩

end Sys2Proof.Machine

/-! The obligation of 44_scanline.md on the predictors. -/

namespace Sys2Proof.Machine

/-- Settles O53: the table of R402 row by row, the byte bound, and Paeth by the cases of its two comparisons. -/
theorem predictorsOfEveryType : Obligations.PredictorsOfEveryType := by
  refine ⟨fun a b c => ?_, by decide, fun t a b c _ => predictor_le t, fun a b c => ?_, fun a b c ha hb hc => ?_,
    paeth_self, by decide⟩
  · obtain ⟨hle, hlt⟩ := predictor_average_bounds a b c
    exact ⟨rfl, rfl, rfl, hle, hlt, rfl⟩
  · exact ⟨fun hb hc => paeth_of_left ⟨hb, hc⟩, paeth_of_above, paeth_of_corner, paethDist_paeth_le a b c⟩
  · omega

end Sys2Proof.Machine

/-! SUPPORT. What each error reports: its row of the table of 60_exceptions.md R501. -/

namespace Sys2Proof.Machine

theorem errClass_toNat (e : CmdError) : e.errClass.toNat = (errorRow e).1 := by cases e <;> rfl

theorem errDetail_toNat (e : CmdError) : e.errDetail.toNat = (errorRow e).2.1 := by cases e <;> rfl

theorem info_eq_errorRow (e : CmdError) : e.info = (errorRow e).2.2 := by cases e <;> rfl

/-- The saturated information value fits in ERR_INFO, so the register holds it exactly. -/
theorem errInfo_toNat (e : CmdError) : e.errInfo.toNat = min e.info 0xFFFFFFFF := by
  have hfits : min e.info 0xFFFFFFFF < 2 ^ 32 := by omega
  rw [CmdError.errInfo, BitVec.toNat_ofNat, Nat.mod_eq_of_lt hfits]

/-- Class 0 is no error's class (60_exceptions.md R500), so STATUS.ERR is set by every error completion. -/
@[simp] theorem Status.failed_err (st : Status) (e : CmdError) : (st.failed e).err = true := by cases e <;> rfl

end Sys2Proof.Machine

/-! The obligation of 60_exceptions.md on error completion. -/

namespace Sys2Proof.Machine

/-- Settles O24: the reported fields by the row of the error, the sticky flags and the frame by State.raise. -/
theorem errorCompletion : Obligations.ErrorCompletion := by
  intro s e
  have hinfo : e.errInfo.toNat = min (errorRow e).2.2 0xFFFFFFFF := info_eq_errorRow e ▸ errInfo_toNat e
  exact ⟨rfl, rfl, errClass_toNat e, errDetail_toNat e, hinfo, errorCodes_mem e, Status.failed_err s.status e,
    rfl, rfl, rfl, rfl⟩

end Sys2Proof.Machine

/-! SUPPORT. The registers right after a reset: what the hardware and the soft reset have in common
(70_reset_and_hazards.md R551, R552). -/

namespace Sys2Proof.Machine

/-- Every field that a register reads is at its reset value of 10_state.md R31, and the engine is Idle. It says nothing of
the memories, which the two resets treat differently (70_reset_and_hazards.md R551). -/
structure State.RegsAtReset (s : State) : Prop where
  ie       : s.ie = false
  status   : s.status = Status.reset
  cmd      : s.cmd = 0
  ops      : s.ops = Operands.reset
  pixRow   : s.pixRow = 0
  pixCol   : s.pixCol = 0
  res      : s.res = Results.reset
  pbH      : s.pb.h = 0
  pbW      : s.pb.w = 0
  pbOffset : s.pb.offset = 54
  engine   : s.engine = none

theorem State.resetWith_regsAtReset (cfg : Config) : (State.resetWith cfg).RegsAtReset := by constructor <;> rfl

theorem State.hardReset_regsAtReset (s : State) : s.hardReset.RegsAtReset := by constructor <;> rfl

theorem State.softReset_regsAtReset (s : State) : s.softReset.RegsAtReset := by constructor <;> rfl

@[simp] theorem Operands.reset_k (i : Fin 9) : Operands.reset.k.get i = 0 := Vector.getElem_replicate i.isLt

@[simp] theorem Operands.reset_a7ph (i : Fin 7) : Operands.reset.a7ph.get i = 0 := Vector.getElem_replicate i.isLt

@[simp] theorem Operands.reset_a7pw (i : Fin 7) : Operands.reset.a7pw.get i = 0 := Vector.getElem_replicate i.isLt

namespace State.RegsAtReset

variable {s : State} (hs : s.RegsAtReset)
include hs

/-- The empty image has no row, so the pixel port names no pixel and PIX_DATA reads 0 (40_pixelbuffer.md R240). -/
theorem not_pixIn : ¬ s.pixIn := fun ⟨hrow, _⟩ => Nat.not_lt_zero _ (hs.pbH ▸ hrow)

theorem pbCount : s.readReg .pbCount = 0 := by simp [State.readReg, hs.pbH]

theorem statusWord : s.readReg .status = 0 := by
  simp only [State.readReg, State.busy, hs.status, hs.engine]
  decide

/-- Every register reads its reset value (10_state.md R31). -/
theorem readReg_eq (r : RegName) : s.readReg r = resetValue r := by
  cases r
  case id => rfl
  case status => exact hs.statusWord
  case pbCount => exact hs.pbCount
  case pixData => exact if_neg hs.not_pixIn
  case ctrl | errInfo | cmd => simp [State.readReg, resetValue, hs.ie, hs.status, hs.cmd, Status.reset]
  case pbH | pbW | pbOffset | pixRow | pixCol =>
    simp [State.readReg, resetValue, hs.pbH, hs.pbW, hs.pbOffset, hs.pixRow, hs.pixCol]
  case outLen | bmpFlags | crcOut | ihdrW | ihdrH | ihdrB | ihdrI =>
    simp [State.readReg, resetValue, hs.res, Results.reset]
  case k | a7ph | a7pw => simp [State.readReg, resetValue, hs.ops]
  case srcAddr | srcLen | dstAddr | dstCap | dimH | dimW | arg0 | arg1 | arg2 | arg3 | cmFr | cmFg | cmFb | gaussR =>
    simp [State.readReg, resetValue, hs.ops, Operands.reset]

end State.RegsAtReset

end Sys2Proof.Machine

/-! The obligation of 70_reset_and_hazards.md on the two resets. -/

namespace Sys2Proof.Machine

/-- Settles O11: each reset leaves the registers at reset, and a memory powered up anew holds no cell. -/
theorem resetValues : Obligations.ResetValues := by
  intro s
  have hmem (a : Nat) : s.hardReset.bm.get? a = none ∧ s.hardReset.gw.get? a = none ∧
      s.hardReset.pb.cells.get? a = none :=
    ⟨s.bm.get?_powerUp a, s.gw.get?_powerUp a, s.pb.cells.get?_powerUp a⟩
  exact ⟨s.hardReset_regsAtReset.readReg_eq, s.softReset_regsAtReset.readReg_eq, hmem, s.softReset_bm, s.softReset_gw,
    rfl, s.busy_hardReset, s.busy_softReset, rfl, (State.resetWith_regsAtReset Config.default).readReg_eq⟩

end Sys2Proof.Machine

/-! SUPPORT. Encoding and decoding against each other: the row that a command's own bytes select, and what the rows
build (30_encoding.md R140, R141). -/

namespace Sys2Proof

/-- The OP byte of a command leads to a row whose legal OPT bits hold its OPT byte and which builds it again. -/
theorem exists_opRow_build {i : Instr} (h : i.wf) :
    ∃ r, opRow i.op = some r ∧ i.opt &&& ~~~ r.legalOpt = 0 ∧ r.build i.opt = i := by
  cases i with
  | slFilter t => exact ⟨_, rfl, BitVec.and_zero, by simp [Instr.opt, Nat.mod_eq_of_lt h]⟩
  | a7Merge n => exact ⟨_, rfl, BitVec.and_zero, by simp [Instr.opt, Nat.mod_eq_of_lt h]⟩
  | conv3 norm => cases norm <;> exact ⟨_, rfl, by decide, rfl⟩
  | _ => exact ⟨_, rfl, BitVec.zero_and, rfl⟩

/-- A row builds well-formed commands only: an OPT byte is below 256. -/
theorem wf_build (opt : Byte) : ∀ r ∈ opTable, (r.build opt).wf := by
  simp [opTable, Instr.wf, opt.isLt]

/-- A decoded command carries the word's whole OPT byte (30_encoding.md R141, R142). -/
theorem opt_of_decode {w : Word} {i : Instr} (h : decode w = .ok i) : i.opt = optField w := by
  obtain ⟨-, r, hmem, -, hopt, rfl⟩ := decode_ok h
  rw [opt_build _ r hmem, and_eq_of_and_not_eq_zero hopt]

theorem wf_of_decode {w : Word} {i : Instr} (h : decode w = .ok i) : i.wf := by
  obtain ⟨-, r, hmem, -, -, rfl⟩ := decode_ok h
  exact wf_build _ r hmem

end Sys2Proof

/-! The obligations of 30_encoding.md on encoding. -/

namespace Sys2Proof.Machine

/-- Settles O1: the encoded word has the command's own fields, and their row builds the command. -/
theorem decodeOfEncodeIsIdentity : Obligations.DecodeOfEncodeIsIdentity := by
  intro i hi
  obtain ⟨r, hr, hlegal, hbuild⟩ := exists_opRow_build hi
  rw [← opField_encode i] at hr
  rw [← optField_encode i] at hlegal hbuild
  rw [decode_of_opRow hr (rsvField_encode i) hlegal, hbuild]

/-- Settles O2: the encoding of the decoded command agrees with the word in each of the three fields. -/
theorem legalWordsEncodeBack : Obligations.LegalWordsEncodeBack := by
  intro w i h
  obtain ⟨hop, -, hrsv⟩ := fields_of_decode h
  refine ⟨wf_of_decode h, word_eq_iff_fields.mpr ⟨?_, ?_, ?_⟩⟩
  · rw [opField_encode, hop]
  · rw [optField_encode, opt_of_decode h]
  · rw [rsvField_encode, hrsv]

/-- Settles O5: each word is evaluated. -/
theorem sampleWordsDecode : Obligations.SampleWordsDecode := by
  unfold Obligations.SampleWordsDecode
  decide

end Sys2Proof.Machine

/-! SUPPORT. The host's accesses of BM and of the unmapped addresses, and the accesses that the BUSY hazard serves or
refuses (20_memory.md R101 to R106, 70_reset_and_hazards.md R560). -/

namespace Sys2Proof.Machine

/-! ### The address map -/

/-- A misaligned or unmapped address reaches nothing (20_memory.md R104 (a), (b)). -/
theorem busAccess_eq_none {cfg : Config} {addr : Word} (h : addr.toNat % 4 ≠ 0 ∨ ¬ mapped cfg addr.toNat) :
    busAccess cfg addr = none := by
  rcases h with halign | hmap
  · exact if_pos halign
  · have hreg : regAt addr.toNat = none := Option.eq_none_iff_forall_ne_some.mpr fun r hr =>
      hmap (.inl ⟨r, offset_of_regAt hr⟩)
    have hgw : ¬ (0x1000 ≤ addr.toNat ∧ addr.toNat < 0x1000 + 8 * cfg.gwEntries) := fun h => hmap (.inr (.inl h))
    have hbm : ¬ (0x01000000 ≤ addr.toNat ∧ addr.toNat < 0x01000000 + cfg.bmBytes) := fun h => hmap (.inr (.inr h))
    have htarget : busTarget cfg addr = none := by
      simp only [busTarget, hreg, Option.map_none]
      split
      · rfl
      · split
        · exact if_neg (by omega)
        · exact if_neg (by omega)
    rw [busAccess, htarget, ite_self]

/-! ### Words of BM -/

/-- A BM read while BUSY = 0 returns the word and changes nothing else (20_memory.md R105, R106). -/
theorem busRead_bm {s : State} (hb : s.busy = false) {addr : Word} {o : Nat} (h : busAccess s.cfg addr = some (.bm o)) :
    s.busRead addr = { s with busData := laneWord fun k => bmByte s.bm (o + k) } := by
  simp [State.busRead, h, hb, State.readEffect, State.readTarget]

/-- A BM write while BUSY = 0 writes the enabled lanes that BM has and nothing else (20_memory.md R104). -/
theorem busWrite_bm {s : State} (hb : s.busy = false) {addr : Word} {o : Nat}
    (h : busAccess s.cfg addr = some (.bm o)) (data : Word) (strobe : BitVec 4) :
    s.busWrite addr data strobe = { s with bm := writeLanes s.cfg.bmBytes o data strobe s.bm } := by
  simp [State.busWrite, h, partialRegWrite, hb, State.writeTarget]

/-! ### Refused and served accesses, at any address -/

/-- A register write without full strobe (20_memory.md R104 (c)). -/
theorem busWrite_partial {s : State} {addr : Word} {t : Target} (h : busAccess s.cfg addr = some t)
    {strobe : BitVec 4} (hp : partialRegWrite t strobe = true) (data : Word) :
    s.busWrite addr data strobe = s.setBuserr := by
  simp [State.busWrite, h, hp]

/-- A write that R560 does not serve while BUSY = 1. -/
theorem busWrite_hazard {s : State} (hb : s.busy = true) {addr data : Word} {strobe : BitVec 4} {t : Target}
    (h : busAccess s.cfg addr = some t) (hp : partialRegWrite t strobe = false)
    (ht : writableWhileBusy t data = false) : s.busWrite addr data strobe = s.setHaz := by
  simp [State.busWrite, h, hp, hb, ht]

/-- A read that R560 does not serve while BUSY = 1. -/
theorem busRead_hazard {s : State} (hb : s.busy = true) {addr : Word} {t : Target}
    (h : busAccess s.cfg addr = some t) (ht : readableWhileBusy t = false) :
    s.busRead addr = { s.setHaz with busData := Config.freeRead s.draws, draws := s.draws + 1 } := by
  simp [State.busRead, h, hb, ht]

/-- The registers R560 lets the host read while BUSY = 1. -/
theorem readableWhileBusy_iff {t : Target} :
    readableWhileBusy t = true ↔ t = .reg .id ∨ t = .reg .ctrl ∨ t = .reg .status := by
  cases t with
  | reg r => cases r <;> simp [readableWhileBusy]
  | gw _ | bm _ => simp [readableWhileBusy]

/-- The writes R560 serves while BUSY = 1. -/
theorem writableWhileBusy_iff {t : Target} {v : Word} :
    writableWhileBusy t v = true ↔ t = .reg .status ∨ (t = .reg .ctrl ∧ v.getLsbD 1 = false) := by
  cases t with
  | reg r => cases r <;> simp [writableWhileBusy]
  | gw _ | bm _ => simp [writableWhileBusy]

/-- A served read of a register other than the pixel port has no side effect (20_memory.md R106). -/
theorem readEffect_of_ne_pixData {r : RegName} (h : r ≠ .pixData) (s : State) : s.readEffect (.reg r) = s := by
  cases r
  case pixData => exact absurd rfl h
  all_goals rfl

/-- A register that R560 lets the host read is read as at any time. -/
theorem busRead_allowed (s : State) {r : RegName} (hr : readableWhileBusy (.reg r) = true) :
    s.busRead r.addr = { s with busData := s.readReg r } := by
  have hport : r ≠ .pixData := fun h => by simp [h, readableWhileBusy] at hr
  simp [State.busRead, hr, readEffect_of_ne_pixData hport, State.readTarget]

end Sys2Proof.Machine

/-! SUPPORT. What one event of the host can make of a block whose command runs (70_reset_and_hazards.md R560, R561). -/

namespace Sys2Proof.Machine

/-- `t` is `s` but for what the host may see and change while BUSY = 1: IE, STATUS and its own side. -/
def HostOnly (s t : State) : Prop :=
  ∃ ie status busData draws host,
    t = { s with ie := ie, status := status, busData := busData, draws := draws, host := host }

theorem HostOnly.refl (s : State) : HostOnly s s := ⟨_, _, _, _, _, rfl⟩

theorem busRead_busy {s : State} (hb : s.busy = true) (addr : Word) :
    HostOnly s (s.busRead addr) ∧ (s.busRead addr).host = s.host := by
  cases h : busAccess s.cfg addr with
  | none =>
    rw [busRead_unmapped h]
    exact ⟨⟨_, _, _, _, _, rfl⟩, rfl⟩
  | some t =>
    cases ht : readableWhileBusy t with
    | false =>
      rw [busRead_hazard hb h ht]
      exact ⟨⟨_, _, _, _, _, rfl⟩, rfl⟩
    | true =>
      obtain ⟨r, rfl⟩ : ∃ r, t = .reg r := by
        rcases readableWhileBusy_iff.mp ht with h | h | h <;> exact ⟨_, h⟩
      rw [eq_addr_of_busAccess h, busRead_allowed s ht]
      exact ⟨⟨_, _, _, _, _, rfl⟩, rfl⟩

theorem busWrite_busy {s : State} (hb : s.busy = true) (addr data : Word) (strobe : BitVec 4) :
    HostOnly s (s.busWrite addr data strobe) ∧ (s.busWrite addr data strobe).host = s.host := by
  cases h : busAccess s.cfg addr with
  | none =>
    rw [busWrite_unmapped h]
    exact ⟨⟨_, _, _, _, _, rfl⟩, rfl⟩
  | some t =>
    cases hp : partialRegWrite t strobe with
    | true =>
      rw [busWrite_partial h hp]
      exact ⟨⟨_, _, _, _, _, rfl⟩, rfl⟩
    | false =>
      cases ht : writableWhileBusy t data with
      | false =>
        rw [busWrite_hazard hb h hp ht]
        exact ⟨⟨_, _, _, _, _, rfl⟩, rfl⟩
      | true =>
        rcases writableWhileBusy_iff.mp ht with rfl | ⟨rfl, hv⟩ <;>
          obtain rfl : strobe = 0xF := by simpa [partialRegWrite] using hp
        · rw [eq_addr_of_busAccess h, busWrite_status]
          exact ⟨⟨_, _, _, _, _, rfl⟩, rfl⟩
        · rw [eq_addr_of_busAccess h, busWrite_ctrl s hv]
          exact ⟨⟨_, _, _, _, _, rfl⟩, rfl⟩

/-- A poll of `wait` is a read of STATUS that may put the wait back in front of the host's list. -/
theorem poll_busy {s : State} (hb : s.busy = true) :
    HostOnly s s.poll ∧ (s.poll.host = s.host ∨ s.poll.host = .wait :: s.host) := by
  obtain ⟨⟨ie, status, busData, draws, host, hread⟩, hhost⟩ := busRead_busy hb RegName.status.addr
  rw [State.poll]
  split
  · exact ⟨⟨_, _, _, _, _, by rw [hread]⟩, .inr (by rw [hhost])⟩
  · exact ⟨⟨_, _, _, _, _, hread⟩, .inl hhost⟩

/-- Short of a hardware reset, no event of the host reaches a running command, and none brings a hardware reset in. -/
theorem serve_busy {s : State} (hb : s.busy = true) {ev : HostEvent} (hev : ev ≠ .hardReset) :
    HostOnly s (State.serve ev s) ∧
      (HostEvent.hardReset ∉ s.host → HostEvent.hardReset ∉ (State.serve ev s).host) := by
  cases ev with
  | read addr =>
    have h := busRead_busy hb addr
    exact ⟨h.1, fun hh => h.2 ▸ hh⟩
  | write addr data strobe =>
    have h := busWrite_busy hb addr data strobe
    exact ⟨h.1, fun hh => h.2 ▸ hh⟩
  | wait =>
    obtain ⟨h, hhost⟩ := poll_busy hb
    refine ⟨h, fun hh => ?_⟩
    rw [State.serve]
    rcases hhost with e | e <;> rw [e]
    · exact hh
    · simpa using hh
  | hardReset => exact absurd rfl hev

end Sys2Proof.Machine

/-! SUPPORT. The step as equations: a completion step, or a turn of the host (assumption 4 of the log). -/

namespace Sys2Proof.Machine

theorem engine_eq_none {s : State} (h : s.busy = false) : s.engine = none :=
  Option.isNone_iff_eq_none.mp (Option.isSome_eq_false_iff.mp h)

theorem step_of_idle {s : State} (h : s.engine = none) : step s = .next s.hostTurn := by
  rw [step, advance, h]

theorem step_of_due {s : State} {e : Running} (h : s.engine = some e) (hd : e.delay = 0) :
    step s = runCommand e.word s := by
  simp only [step, advance, h, hd]

theorem step_of_waiting {s : State} {e : Running} {d : Nat} (h : s.engine = some e) (hd : e.delay = d + 1) :
    step s = .next (State.hostTurn { s with engine := some { e with delay := d } }) := by
  simp only [step, advance, h, hd]

theorem hostTurn_nil {s : State} (h : s.host = []) : s.hostTurn = s := by
  rw [State.hostTurn, h]

theorem hostTurn_cons {s : State} {ev : HostEvent} {rest : List HostEvent} (h : s.host = ev :: rest) :
    s.hostTurn = State.serve ev { s with host := rest } := by
  rw [State.hostTurn, h]

/-- A turn of the host that is no hardware reset leaves a running command as it is. -/
theorem hostTurn_busy {s : State} (hb : s.busy = true) (hh : HostEvent.hardReset ∉ s.host) :
    HostOnly s s.hostTurn ∧ HostEvent.hardReset ∉ s.hostTurn.host := by
  cases h : s.host with
  | nil =>
    rw [hostTurn_nil h]
    exact ⟨.refl s, hh⟩
  | cons ev rest =>
    rw [h, List.mem_cons, not_or] at hh
    obtain ⟨⟨ie, status, busData, draws, host, heq⟩, hhost⟩ :=
      serve_busy (s := { s with host := rest }) hb (Ne.symm hh.1)
    rw [hostTurn_cons h]
    exact ⟨⟨_, _, _, _, _, heq⟩, hhost hh.2⟩

theorem run_succ {s t : State} (h : step s = .next t) (n : Nat) : core.run (n + 1) s = core.run n t := by
  have hstep : core.step s = .next t := h
  simp only [Host.Core.run, hstep]

/-- Every way a command ends is a next state (00_scope.md R13). -/
theorem CommandEnd.exists_next {s : State} {out : Out} (h : CommandEnd s out) : ∃ t, out = .next t := by
  cases h <;> exact ⟨_, rfl⟩

/-- The completion step of any word answers a next state, in which the block is idle. -/
theorem exists_runCommand (w : Word) (s : State) : ∃ t, runCommand w s = .next t ∧ CommandFrame s t :=
  (runCommand_end w s).exists_next.imp fun _ ht => ⟨ht, runCommand_frame ht⟩

end Sys2Proof.Machine

/-! SUPPORT. What a served write of a register with storage does to that register and to every other one (10_state.md
R31, R46, R49, R52). -/

namespace Sys2Proof.Machine

/-- Masking with low ones is what a narrower field reads back, widened (10_state.md R46, R49). -/
theorem setWidth_setWidth_eq_and (v : Word) :
    (v.setWidth 16).setWidth 32 = v &&& 0xFFFF ∧ (v.setWidth 8).setWidth 32 = v &&& 0xFF := by
  constructor <;> ext i hi <;> simp <;> interval_cases i <;> simp

theorem get_set_same {α : Type} {n : Nat} (v : Vector α n) (i : Fin n) (x : α) : (v.set i.val x).get i = x := by
  simp [Vector.get_eq_getElem]

theorem get_set_of_ne {α : Type} {n : Nat} (v : Vector α n) {i j : Fin n} (x : α) (h : j ≠ i) :
    (v.set i.val x).get j = v.get j := by
  have hij : i.val ≠ j.val := fun e => h (Fin.ext e.symm)
  simp [Vector.get_eq_getElem, Vector.getElem_set_ne, hij]

theorem readReg_writeReg_same (s : State) {r : RegName} (v : Word) {bits : Word} (h : writableBits r = some bits) :
    (s.writeReg r v).readReg r = v &&& bits := by
  have hall : v &&& 0xFFFFFFFF = v := BitVec.and_allOnes
  cases r <;> cases h
  case cmFr | cmFg | cmFb => exact (setWidth_setWidth_eq_and v).1
  case k i => exact (congrArg _ (get_set_same s.ops.k i _)).trans (setWidth_setWidth_eq_and v).2
  case a7ph i => exact (get_set_same s.ops.a7ph i v).trans hall.symm
  case a7pw i => exact (get_set_same s.ops.a7pw i v).trans hall.symm
  all_goals exact hall.symm

theorem readReg_writeReg_other (s : State) {r r' : RegName} (v : Word) {bits : Word} (h : writableBits r = some bits)
    (hne : r' ≠ r) (hport : r' ≠ .pixData) : (s.writeReg r v).readReg r' = s.readReg r' := by
  cases r <;> cases h
  case k i =>
    cases r'
    case k j => exact congrArg (BitVec.setWidth 32) (get_set_of_ne s.ops.k _ (by simpa using hne))
    all_goals rfl
  case a7ph i =>
    cases r'
    case a7ph j => exact get_set_of_ne s.ops.a7ph _ (by simpa using hne)
    all_goals rfl
  case a7pw i =>
    cases r'
    case a7pw j => exact get_set_of_ne s.ops.a7pw _ (by simpa using hne)
    all_goals rfl
  all_goals cases r' <;> first | rfl | contradiction

/-- A register with storage holds no memory and no part of PB. -/
theorem writeReg_memories (s : State) {r : RegName} (v : Word) {bits : Word} (h : writableBits r = some bits) :
    (s.writeReg r v).bm = s.bm ∧ (s.writeReg r v).gw = s.gw ∧ (s.writeReg r v).pb = s.pb := by
  cases r <;> cases h <;> exact ⟨rfl, rfl, rfl⟩

/-- "RO: read-only. A write is ignored and sets no flag" (10_state.md R31). -/
theorem writeReg_readOnly (s : State) (v : Word) : ∀ r ∈ readOnlyRegisters, s.writeReg r v = s := by
  simp [readOnlyRegisters, State.writeReg]

/-- What every register without an index reads (10_state.md R32, R38 to R50). -/
theorem readReg_registerReads (s : State) : ∀ p ∈ registerReads s, s.readReg p.1 = p.2 := by
  have htop : BitVec.ofNat 32 s.res.topdown.toNat = if s.res.topdown then 1 else 0 := by cases s.res.topdown <;> rfl
  simp [registerReads, State.readReg, idValue, htop]

end Sys2Proof.Machine

/-! The obligations of 20_memory.md on bus accesses, of 10_state.md on registers, and of 70_reset_and_hazards.md on the
BUSY hazard and completion. -/

namespace Sys2Proof.Machine

/-- Settles O6: the step's equation for a completion that is due, and the two answers of the decoder. -/
theorem stepRunsTheAcceptedCommand : Obligations.StepRunsTheAcceptedCommand := by
  refine ⟨fun s e i he hd hi => ?_, fun s e d he hd hw => ?_, fun s w i hw hi => ?_⟩
  · rw [step_of_due he hd, runCommand_of_ok s hi]
  · rw [step_of_due he hd, runCommand_of_error s hw]
  · rw [← Nat.mod_eq_of_lt hw] at hi
    exact (step_of_due rfl rfl).trans (runCommand_of_ok _ hi)

/-- Settles O7: the step's equations for a turn of the host. -/
theorem otherStepsServeTheHost : Obligations.OtherStepsServeTheHost := by
  refine ⟨fun s ev rest he hh => ?_, fun s he hh => ?_, fun s e d ev rest he hd hh => ?_, fun s e d he hd hh => ?_⟩
  · rw [step_of_idle he, hostTurn_cons hh]
  · rw [step_of_idle he, hostTurn_nil hh]
  · rw [step_of_waiting he hd]
    exact congrArg _ (hostTurn_cons hh)
  · rw [step_of_waiting he hd]
    exact congrArg _ (hostTurn_nil hh)

/-- Settles O10, by induction on the turns of the host that are left: each leaves the command running, and the completion
step ends it. -/
theorem everyAcceptedCommandCompletes : Obligations.EveryAcceptedCommandCompletes := by
  intro s e he hh
  generalize hd : e.delay = d
  induction d generalizing s e with
  | zero =>
    obtain ⟨t, ht, hframe⟩ := exists_runCommand e.word s
    rw [run_succ ((step_of_due he hd).trans ht)]
    exact ⟨t, rfl, hframe.idle⟩
  | succ d ih =>
    obtain ⟨⟨_, _, _, _, _, heq⟩, hhost⟩ := hostTurn_busy (s := { s with engine := some { e with delay := d } }) rfl hh
    rw [run_succ (step_of_waiting he hd)]
    exact ih _ { e with delay := d } (by rw [heq]) hhost rfl

/-- Settles O12: the address map in both directions, and the byte lanes of a served write. -/
theorem busErrorsAndStrobes : Obligations.BusErrorsAndStrobes := by
  refine fun s addr data strobe hc => ⟨fun h => ?_, fun r hr hs => ?_, fun hb ha o ho hlt => ?_, fun hb ha o ho hlt => ?_⟩
  · exact ⟨busRead_unmapped (busAccess_eq_none h), busWrite_unmapped (busAccess_eq_none h) data strobe⟩
  · exact busWrite_partial (busAccess_of_offset s.cfg hr) (by simpa [partialRegWrite] using hs) data
  · rw [busWrite_bm hb (busAccess_bm s.cfg ha ho hlt)]
    exact ⟨fun k hk hin hs => read_writeLanes_on _ _ _ _ _ _ hk hs hin, fun a => read_writeLanes_off _ _ _ _ _ _, rfl⟩
  · rw [busWrite_gw hb (busAccess_gw hc ha ho hlt)]
    have hentry : 8 * s.cfg.gwEntries % 4 = 0 := by omega
    exact ⟨fun k hk hs => read_writeLanes_on _ _ _ _ _ _ hk hs (by omega), fun a => read_writeLanes_off _ _ _ _ _ _, rfl⟩

/-- Settles O13: a word read is its four lanes, and a full strobe enables every lane. -/
theorem littleEndianBusWords : Obligations.LittleEndianBusWords := by
  refine fun s addr v hc hb ha => ⟨fun o ho hlt => ?_, fun o ho hlt => ?_⟩
  · have hacc := busAccess_bm s.cfg ha ho hlt
    rw [busRead_bm hb hacc, busWrite_bm hb hacc, laneWord_append]
    exact ⟨rfl, fun k hk hin => read_writeLanes_on _ _ _ _ _ _ hk (fullStrobe_getLsbD k hk) hin⟩
  · have hacc := busAccess_gw hc ha ho hlt
    rw [busRead_gw hb hacc, busWrite_gw hb hacc, gwWord, laneWord_append]
    exact ⟨rfl, fun k hk => read_writeLanes_on _ _ _ _ _ _ hk (fullStrobe_getLsbD k hk) (by omega)⟩

/-- Settles O15: the map by the offsets, the reads by the fields of the state, and a write by what it leaves in the written
register and in every other one. -/
theorem operandRegistersReadBack : Obligations.OperandRegistersReadBack := by
  have hplace (r : RegName) {o : Nat} (h : r.offset = o) : r.offset = o ∧ regAt o = some r := ⟨h, h ▸ regAt_offset r⟩
  have hmap : ∀ p ∈ registerMap, p.1.offset = p.2 := by simp [registerMap, RegName.offset]
  refine ⟨fun p hp => hplace p.1 (hmap p hp), fun i => hplace (.k i) rfl, fun i => hplace (.a7ph i) rfl,
    fun i => hplace (.a7pw i) rfl, fun o r => offset_of_regAt, fun s => ⟨readReg_registerReads s, fun i => rfl,
    fun i => ⟨rfl, rfl⟩⟩, fun s r hb hport => ?_, fun s v hb r hr => ?_, fun s r v bits hb hbits => ?_⟩
  · rw [busRead_addr hb, readEffect_of_ne_pixData hport]
  · rw [busWrite_addr hb, writeReg_readOnly s v r hr]
  · rw [busWrite_addr hb]
    exact ⟨readReg_writeReg_same s v hbits, fun r' => readReg_writeReg_other s v hbits, writeReg_memories s v hbits⟩

/-- Settles O19: the accesses that R560 serves are those of the two tables, and every other one is refused. -/
theorem accessWhileBusy : Obligations.AccessWhileBusy := by
  refine fun s hb => ⟨fun addr data strobe t ht hp hserved => ?_, fun addr t ht hserved => ?_, fun r hr => ?_,
    busWrite_status s, fun v hv => busWrite_ctrl s hv, fun addr data strobe => ⟨fun h => ?_, fun t ht hp => ?_⟩, rfl⟩
  · refine busWrite_hazard hb ht hp (Bool.eq_false_of_not_eq_true fun hw => hserved ?_)
    rcases writableWhileBusy_iff.mp hw with rfl | ⟨rfl, hv⟩ <;>
      obtain rfl : strobe = 0xF := by simpa [partialRegWrite] using hp
    · exact .inr (.inr (.inr (.inl ⟨data, by rw [eq_addr_of_busAccess ht]⟩)))
    · exact .inr (.inr (.inr (.inr ⟨data, hv, by rw [eq_addr_of_busAccess ht]⟩)))
  · refine ⟨_, _, busRead_hazard hb ht (Bool.eq_false_of_not_eq_true fun hr => hserved ?_)⟩
    rcases readableWhileBusy_iff.mp hr with rfl | rfl | rfl <;> rw [eq_addr_of_busAccess ht]
    · exact .inl rfl
    · exact .inr (.inl rfl)
    · exact .inr (.inr (.inl rfl))
  · exact busRead_allowed s (readableWhileBusy_iff.mpr (by simpa using hr))
  · exact ⟨busWrite_unmapped h data strobe, busRead_unmapped h⟩
  · exact busWrite_partial ht hp data

/-- Settles O20: the data of a read by the cases of R560, and the rest by what an event can make of a busy block. -/
theorem hostCannotTouchARunningCommand : Obligations.HostCannotTouchARunningCommand := by
  refine ⟨fun s s' addr hb hb' hcfg hie hstatus hdraws => ?_, fun s ev hb hev => ?_⟩
  · cases h : busAccess s.cfg addr with
    | none => rw [busRead_unmapped h, busRead_unmapped (hcfg ▸ h)]
    | some t =>
      cases ht : readableWhileBusy t with
      | false => rw [busRead_hazard hb h ht, busRead_hazard hb' (hcfg ▸ h) ht, hdraws]
      | true =>
        rcases readableWhileBusy_iff.mp ht with rfl | rfl | rfl <;>
          rw [eq_addr_of_busAccess h, busRead_allowed s ht, busRead_allowed s' ht] <;>
          simp only [State.readReg, hie, hstatus, hb, hb']
  · obtain ⟨⟨_, _, _, _, _, heq⟩, -⟩ := serve_busy hb hev
    rw [heq]
    exact ⟨rfl, rfl, rfl, rfl, rfl, rfl, rfl, rfl, rfl, rfl, rfl⟩

/-- Settles O23: the two ways a command ends, and the frame of each. -/
theorem everyCommandEndsInDoneOrError : Obligations.EveryCommandEndsInDoneOrError := by
  intro i s
  have hend := exec_end i s
  obtain ⟨t, ht⟩ := hend.exists_next
  rw [ht] at hend
  refine ⟨t, ht, hend.frame, ?_⟩
  generalize ho : Host.Outcome.next t = out at hend
  cases hend with
  | done pb bm ops res => cases ho; exact .inl (commit_frame s pb bm ops res)
  | failed e => cases ho; exact .inr ⟨e, rfl⟩

/-- NOP leaves every register but STATUS, and acceptance every register but STATUS, CMD and ERR_INFO (10_state.md R35, R38,
R41; 40_pixelbuffer.md R201). -/
theorem readReg_finish_start (s : State) (w : Word) (d : Nat) {r : RegName} (hst : r ≠ .status) (hcmd : r ≠ .cmd)
    (hinfo : r ≠ .errInfo) : (s.start w d).finish.readReg r = s.readReg r := by
  cases r
  case status => exact absurd rfl hst
  case cmd => exact absurd rfl hcmd
  case errInfo => exact absurd rfl hinfo
  all_goals rfl

/-- Settles O26: NOP is State.finish, and its word is run from an accepted CMD write. -/
theorem nopOnlyCompletes : Obligations.NopOnlyCompletes := by
  refine ⟨by decide, fun opt hpos hbyte => ?_, fun s => rfl, fun s => ⟨(s.start 0 0).finish, ?_, rfl, rfl, rfl,
    fun r => readReg_finish_start s 0 0⟩⟩
  · have hword := ofNat_eq_ofFields 0 hbyte
    rw [BitVec.ofNat_eq_ofNat, BitVec.toNat_ofNat, Nat.zero_mod, Nat.zero_add] at hword
    rw [hword]
    refine decode_of_reservedBits (by rw [opField_ofFields]; decide) (.inr ?_)
    rw [optField_ofFields, opField_ofFields]
    intro h
    have hzero : (BitVec.ofNat 8 opt).toNat = 0 := congrArg BitVec.toNat ((BitVec.and_allOnes).symm.trans h)
    rw [BitVec.toNat_ofNat, Nat.mod_eq_of_lt hbyte] at hzero
    omega
  · exact (step_of_due rfl rfl).trans (runCommand_of_ok _ (show decode 0 = .ok .nop by decide))

end Sys2Proof.Machine

/-! SUPPORT. The Adam7 passes (45_adam7.md R450 to R454): which pass a pixel is a point of, the reduced dimensions, and
the sizes and offsets of the passes in the stream. -/

namespace Sys2Proof.Machine

/-! ### Points of a pass -/

/-- Every pass starts inside its step, and its steps divide the 8 x 8 tile (45_adam7.md R450). -/
theorem passSteps_facts {p : Nat} (h1 : 1 ≤ p) (h7 : p ≤ 7) :
    ((passSteps p).rs < (passSteps p).dr ∧ (passSteps p).dr ∣ 8) ∧
      (passSteps p).cs < (passSteps p).dc ∧ (passSteps p).dc ∣ 8 := by
  interval_cases p <;> decide

/-- The lookup table of R451 is the pass table of R450 on the 8 x 8 tile. -/
theorem passTable_eq_passSteps {p : Nat} (h1 : 1 ≤ p) (h7 : p ≤ 7) : ∀ i < 8, ∀ j < 8,
    (i % (passSteps p).dr = (passSteps p).rs ∧ j % (passSteps p).dc = (passSteps p).cs) ↔ passOf i j = p := by
  interval_cases p <;> decide

theorem passOf_mod (r c : Nat) : passOf r c = passOf (r % 8) (c % 8) := by
  simp only [passOf, Nat.mod_mod]

theorem passOf_range (r c : Nat) : 1 ≤ passOf r c ∧ passOf r c ≤ 7 := by
  have htable : ∀ i < 8, ∀ j < 8, 1 ≤ passOf i j ∧ passOf i j ≤ 7 := by decide
  rw [passOf_mod]
  exact htable _ (Nat.mod_lt _ (by decide)) _ (Nat.mod_lt _ (by decide))

/-- The points of a progression that starts inside its step. -/
theorem exists_step_iff {n start step : Nat} (h : start < step) : (∃ u, n = start + u * step) ↔ n % step = start := by
  constructor
  · rintro ⟨u, rfl⟩
    rw [Nat.add_mul_mod_self_right, Nat.mod_eq_of_lt h]
  · rintro rfl
    exact ⟨n / step, (Nat.mod_add_div' n step).symm⟩

/-- A pixel is a point of the pass that the lookup table names, and of no other (45_adam7.md R450, R451). -/
theorem point_iff_passOf {p : Nat} (h1 : 1 ≤ p) (h7 : p ≤ 7) (r c : Nat) :
    (∃ u v, r = (passSteps p).rs + u * (passSteps p).dr ∧ c = (passSteps p).cs + v * (passSteps p).dc) ↔
      passOf r c = p := by
  obtain ⟨⟨hr, hdr⟩, hc, hdc⟩ := passSteps_facts h1 h7
  have htile := passTable_eq_passSteps h1 h7 (r % 8) (Nat.mod_lt _ (by decide)) (c % 8) (Nat.mod_lt _ (by decide))
  rw [Nat.mod_mod_of_dvd r hdr, Nat.mod_mod_of_dvd c hdc, ← passOf_mod, ← exists_step_iff hr, ← exists_step_iff hc]
    at htile
  rw [← htile]
  constructor
  · rintro ⟨u, v, hu, hv⟩
    exact ⟨⟨u, hu⟩, v, hv⟩
  · rintro ⟨⟨u, hu⟩, v, hv⟩
    exact ⟨u, v, hu, hv⟩

theorem passOf_point {p : Nat} (h1 : 1 ≤ p) (h7 : p ≤ 7) (u v : Nat) :
    passOf ((passSteps p).rs + u * (passSteps p).dr) ((passSteps p).cs + v * (passSteps p).dc) = p :=
  (point_iff_passOf h1 h7 _ _).mp ⟨u, v, rfl, rfl⟩

/-! ### Reduced dimensions -/

/-- A reduced dimension counts the points of its progression below n (45_adam7.md R452). -/
theorem lt_reduced_iff {n start step : Nat} (hstep : 0 < step) (u : Nat) :
    u < reduced n start step ↔ start + u * step < n := by
  unfold reduced
  split
  · rw [← Nat.succ_le_iff, Nat.le_div_iff_mul_le hstep, Nat.succ_mul]
    omega
  · omega

theorem lt_passH_iff {p : Nat} (h1 : 1 ≤ p) (h7 : p ≤ 7) (h u : Nat) :
    u < passH p h ↔ (passSteps p).rs + u * (passSteps p).dr < h :=
  lt_reduced_iff (by have := (passSteps_facts h1 h7).1.1; omega) u

theorem lt_passW_iff {p : Nat} (h1 : 1 ≤ p) (h7 : p ≤ 7) (w v : Nat) :
    v < passW p w ↔ (passSteps p).cs + v * (passSteps p).dc < w :=
  lt_reduced_iff (by have := (passSteps_facts h1 h7).2.1; omega) v

/-- A pass has no more rows than the image. -/
theorem reduced_le {n start step : Nat} (hstep : 0 < step) : reduced n start step ≤ n := by
  refine Nat.le_of_not_lt fun h => ?_
  have hlast := (lt_reduced_iff hstep n).mp h
  have := Nat.le_mul_of_pos_right n hstep
  omega

theorem passH_le {p : Nat} (h1 : 1 ≤ p) (h7 : p ≤ 7) (h : Nat) : passH p h ≤ h :=
  reduced_le (by have := (passSteps_facts h1 h7).1.1; omega)

theorem passW_le {p : Nat} (h1 : 1 ≤ p) (h7 : p ≤ 7) (w : Nat) : passW p w ≤ w :=
  reduced_le (by have := (passSteps_facts h1 h7).2.1; omega)

/-- Two interleaved progressions of step 2d are one of step d: each pass doubles the sampling of those before it. -/
theorem reduced_double (n : Nat) {d : Nat} (hd : d = 1 ∨ d = 2 ∨ d = 4) :
    reduced n 0 (2 * d) + reduced n d (2 * d) = reduced n 0 d := by
  unfold reduced
  rcases hd with rfl | rfl | rfl <;> split <;> split <;> omega

theorem reduced_one (n : Nat) : reduced n 0 1 = n := by
  unfold reduced
  split <;> omega

/-- The passes hold H*W pixels together (45_adam7.md R452): pass by pass, the sampled columns and the sampled rows double
in turn. -/
theorem passes_sum (h w : Nat) : ((List.range 7).map fun q => passH (q + 1) h * passW (q + 1) w).sum = h * w := by
  have hh8 := reduced_double h (d := 4) (by decide)
  have hh4 := reduced_double h (d := 2) (by decide)
  have hh2 := reduced_double h (d := 1) (by decide)
  have hw8 := reduced_double w (d := 4) (by decide)
  have hw4 := reduced_double w (d := 2) (by decide)
  have hw2 := reduced_double w (d := 1) (by decide)
  rw [reduced_one] at hh2 hw2
  calc ((List.range 7).map fun q => passH (q + 1) h * passW (q + 1) w).sum
      = reduced h 0 8 * (reduced w 0 8 + reduced w 4 8) + reduced h 4 8 * reduced w 0 4 + reduced h 0 4 * reduced w 2 4
        + reduced h 2 4 * reduced w 0 2 + reduced h 0 2 * reduced w 1 2 + reduced h 1 2 * reduced w 0 1 := by
        simp [List.range_succ, passH, passW, passSteps, Nat.mul_add, Nat.add_assoc]
    _ = (reduced h 0 8 + reduced h 4 8) * reduced w 0 4 + reduced h 0 4 * reduced w 2 4
        + reduced h 2 4 * reduced w 0 2 + reduced h 0 2 * reduced w 1 2 + reduced h 1 2 * w := by
        rw [hw8, reduced_one, Nat.add_mul]
    _ = (reduced h 0 4 + reduced h 2 4) * reduced w 0 2 + reduced h 0 2 * reduced w 1 2 + reduced h 1 2 * w := by
        rw [hh8, ← Nat.mul_add, hw4, ← Nat.add_mul]
    _ = h * w := by rw [hh4, ← Nat.mul_add, hw2, ← Nat.add_mul, hh2]

/-! ### The stream -/

/-- Each pass starts in the stream where the one before it ends (45_adam7.md R454). -/
theorem passOffset_succ (h w : Nat) {p : Nat} (h1 : 1 ≤ p) :
    passOffset h w (p + 1) = passOffset h w p + 3 * (passH p h * passW p w) := by
  obtain ⟨q, rfl⟩ := Nat.exists_eq_add_of_le' h1
  simp [passOffset, passBytes, List.range_succ, Nat.mul_add]

@[simp] theorem subImage_length (x : Inputs) (p : Nat) : (x.subImage p).length = passH p x.h * passW p x.w :=
  gridOf_length _ _ _

/-- The passes 1..n of the stream, one after another (45_adam7.md R454). -/
theorem passes_length (x : Inputs) (n : Nat) :
    ((List.range n).flatMap fun q => (x.subImage (q + 1)).flatMap Pixel.bytes).length = passBytes x.h x.w n := by
  induction n with
  | zero => rfl
  | succ n ih =>
    rw [List.range_succ, List.flatMap_append, List.length_append, ih, List.flatMap_singleton, flatMap_bytes_length,
      subImage_length]
    simp [passBytes, List.range_succ, Nat.mul_add]

theorem a7Stream_length (x : Inputs) : x.a7Stream.length = 3 * x.h * x.w := by
  rw [Inputs.a7Stream, passes_length, passBytes, passes_sum, Nat.mul_assoc]

/-- Block q of a concatenation stands behind the blocks before it. -/
theorem range_flatMap_getElem? {β : Type} (f : Nat → List β) {n q k : Nat} (hq : q < n) (hk : k < (f q).length) :
    ((List.range n).flatMap f)[((List.range q).flatMap f).length + k]? = (f q)[k]? := by
  obtain ⟨m, rfl⟩ := Nat.exists_eq_add_of_lt hq
  have hsplit : List.range (q + m + 1) = List.range q ++ q :: (List.range m).map (q + 1 + ·) := by
    rw [show q + m + 1 = (q + 1) + m by omega, List.range_add, List.range_succ, List.append_assoc]
    rfl
  rw [hsplit, List.flatMap_append, List.flatMap_cons, List.getElem?_append_right (Nat.le_add_right _ _),
    Nat.add_sub_cancel_left, List.getElem?_append_left hk]

/-- Byte k of the pixel (u, v) of pass p in the stream (45_adam7.md R453, R454). -/
theorem a7Stream_getElem? (x : Inputs) {p u v k : Nat} (h1 : 1 ≤ p) (h7 : p ≤ 7) (hu : u < passH p x.h)
    (hv : v < passW p x.w) (hk : k < 3) :
    x.a7Stream[passOffset x.h x.w p + 3 * (u * passW p x.w + v) + k]? =
      (x.px ((passSteps p).rs + u * (passSteps p).dr) ((passSteps p).cs + v * (passSteps p).dc)).bytes[k]? := by
  obtain ⟨q, rfl⟩ := Nat.exists_eq_add_of_le' h1
  have hindex := index_lt hu hv
  rw [passOffset, Nat.add_sub_cancel, ← passes_length, Nat.add_assoc, Inputs.a7Stream,
    range_flatMap_getElem? (n := 7) _ (by omega) (by rw [flatMap_bytes_length, subImage_length]; omega),
    Nat.mul_comm 3, flatMap_getElem? (n := 3) _ _ (fun _ => rfl) _ hk,
    Inputs.subImage, gridOf_at _ hu hv, Option.bind_some]

end Sys2Proof.Machine

/-! The obligation of 45_adam7.md on the passes. -/

namespace Sys2Proof.Machine

/-- Settles O57: points of a pass by the 8 x 8 tile, and the count of pixels by the doubling of the sampling. -/
theorem passesPartitionEveryImage : Obligations.PassesPartitionEveryImage :=
  ⟨rfl, passOf_mod, rfl, fun _ _ => rfl, fun h w _ h1 _ => passOffset_succ h w h1,
    fun r c _ h1 h7 => point_iff_passOf h1 h7 r c, passOf_range,
    fun h w _ u h1 h7 => ⟨lt_passH_iff h1 h7 h u, lt_passW_iff h1 h7 w u⟩, passes_sum⟩

end Sys2Proof.Machine

/-! SUPPORT. The safe-state invariant over a command: what each way to commit needs to keep it. -/

namespace Sys2Proof.Machine

/-- Whatever next state the outcome answers is safe. -/
def KeepsInv (out : Out) : Prop := ∀ t, out = .next t → t.Inv

namespace KeepsInv

theorem ok {s : State} (h : s.finish.Inv) : KeepsInv s.ok := by
  rintro t ⟨⟩
  exact h

variable {s : State} (hs : s.Inv)
include hs

theorem fail (e : CmdError) : KeepsInv (s.fail e) := by
  intro t ht
  exact Host.Outcome.next.inj ht ▸ raise_inv hs e

/-- One check in front of the rest of a command, which then may rely on it. -/
theorem check {c : Prop} [Decidable c] {e : CmdError} {out : Out} (h : ¬ c → KeepsInv out) :
    KeepsInv (if c then s.fail e else out) := by
  split
  · exact fail hs e
  · next hc => exact h hc

/-- Writing result registers keeps the invariant when OUT_LEN stays inside BM. -/
theorem setResults {res : Results} (hl : res.outLen.toNat ≤ s.cfg.bmBytes) : KeepsInv (s.setResults res).ok := by
  obtain ⟨hbm, -, hpb, hbmb, -, hpbb⟩ := hs.memories
  obtain ⟨hh, hw, hc⟩ := hs.dims
  exact ok (commit_inv hs (pb := s.pb) (ops := s.ops) hpb hpbb hbm hbmb hh hw hc hs.offset hl)

/-- Replacing PB keeps the invariant when the new one is canonical and inside its limits. -/
theorem setImage {pb : PixelBuffer} (hwf : pb.cells.wf) (hbelow : pb.cells.below s.cfg.pbCells)
    (hcap : ¬ overCapacity s.cfg pb.h.toNat pb.w.toNat) (ho : 54 ≤ pb.offset.toNat) :
    KeepsInv (s.setImage pb).ok := by
  obtain ⟨hh, hw, hc⟩ := not_overCapacity_iff.mp hcap
  exact ok (commit_inv hs (ops := s.ops) (res := s.res) hwf hbelow hs.memories.bm_wf hs.memories.bm_below hh hw hc ho
    hs.outLen)

/-- Building an h x w image within the limits of 10_state.md R62. -/
theorem buildImage {h w : Nat} {offset : Word} {pixels : List Pixel} {res : Results}
    (hcap : ¬ overCapacity s.cfg h w) (hlen : pixels.length = h * w) (ho : 54 ≤ offset.toNat)
    (hl : res.outLen = s.res.outLen) : KeepsInv ((s.buildImage h w offset pixels).setResults res).ok := by
  obtain ⟨hh, hw, hc⟩ := not_overCapacity_iff.mp hcap
  have hword {n : Nat} (hn : n ≤ 2 ^ 31 - 1) : (BitVec.ofNat 32 n).toNat = n := by
    rw [BitVec.toNat_ofNat, Nat.mod_eq_of_lt (by omega)]
  refine ok (commit_inv hs (ops := s.ops) (pb := (s.buildImage h w offset pixels).pb)
    (Memory.write_wf hs.memories.pb_wf _ _)
    (Memory.write_below hs.memories.pb_below (by omega)) hs.memories.bm_wf hs.memories.bm_below ?_ ?_ ?_ ho
    (hl ▸ hs.outLen))
  · exact (hword hh).trans_le hh
  · exact (hword hw).trans_le hw
  · exact (congrArg₂ _ (hword hh) (hword hw)).trans_le hc

/-- Painting at most the pixels of the image. -/
theorem paint {pixels : List Pixel} (hlen : pixels.length ≤ s.inputs.h * s.inputs.w) : KeepsInv (s.paint pixels).ok := by
  obtain ⟨hh, hw, hc⟩ := hs.dims
  rw [inputs_eq_sample hs] at hlen
  exact setImage hs (Memory.write_wf hs.memories.pb_wf _ _)
    (Memory.write_below hs.memories.pb_below (by rw [Nat.zero_add]; exact hlen.trans hc))
    (not_overCapacity_iff.mpr ⟨hh, hw, hc⟩) hs.offset

/-- Emitting the `n` bytes of `out` inside a destination window that lies in BM (20_memory.md R110, R112). -/
theorem emit {n : Nat} {out : List Byte} {ops : Operands} {res : Results} (hdst : ¬ s.inputs.dstOut s.cfg)
    (hn : n ≤ s.inputs.dstCap) (hlen : out.length = n) (hl : res.outLen = BitVec.ofNat 32 n) :
    KeepsInv (State.ok { s with bm := s.bm.write s.inputs.dstAddr out, ops := ops, res := res }) := by
  obtain ⟨hh, hw, hc⟩ := hs.dims
  have hin : s.inputs.dstAddr + n ≤ s.cfg.bmBytes := by omega
  refine ok (commit_inv hs (pb := s.pb) hs.memories.pb_wf hs.memories.pb_below (Memory.write_wf hs.memories.bm_wf _ _)
    (Memory.write_below hs.memories.bm_below (hlen ▸ hin)) hh hw hc hs.offset ?_)
  rw [hl, BitVec.toNat_ofNat]
  exact (Nat.mod_le _ _).trans (by omega)

end KeepsInv

/-! ### The commands -/

theorem blackRows_wf {m : Memory Pixel} (hm : m.wf) (w c0 c1 r n : Nat) : (blackRows w c0 c1 r n m).wf := by
  induction n generalizing r m with
  | zero => exact hm
  | succ n ih => exact ih (Memory.write_wf hm _ _) _

/-- The rows of PB_BLACKOUT write no cell past the last of them. -/
theorem blackRows_below {m : Memory Pixel} {w c0 c1 r n size : Nat} (hm : m.below size) (hc : c0 < c1) (hw : c1 ≤ w)
    (hsize : (r + n) * w ≤ size) : (blackRows w c0 c1 r n m).below size := by
  induction n generalizing r m with
  | zero => exact hm
  | succ n ih =>
    have hrow : (r + 1) * w ≤ (r + (n + 1)) * w := Nat.mul_le_mul_right w (by omega)
    rw [Nat.succ_mul] at hrow
    exact ih (Memory.write_below hm (by rw [List.length_replicate]; omega)) (by rwa [Nat.add_assoc, Nat.add_comm 1])

/-- The signed words that BMP_DECODE lets pass fit 31 bits (00_scope.md R10). -/
theorem le32s_natAbs_le (x : Inputs) (p : Nat) (h : x.le32s p ≠ -(2 ^ 31)) : (x.le32s p).natAbs ≤ 2 ^ 31 - 1 := by
  have hlo := (BitVec.ofNat 32 (x.le32 p)).le_toInt
  have hhi := (BitVec.ofNat 32 (x.le32 p)).toInt_lt
  unfold Inputs.le32s at h ⊢
  norm_num at *
  omega

section
variable {s : State} (hs : s.Inv)
include hs

theorem execBmpDecode_inv : KeepsInv (execBmpDecode s) := by
  refine .check hs fun _ => .check hs fun _ => .check hs fun _ => .check hs fun hoff => .check hs fun hw =>
    .check hs fun hmin => .check hs fun hcap => .check hs fun _ => ?_
  have hword := le32_lt s.inputs 10
  have hwmin : s.inputs.le32s 18 ≠ -(2 ^ 31) := by norm_num; omega
  refine .buildImage hs (not_overCapacity_iff.mpr ⟨le32s_natAbs_le _ _ hmin, ?_, by omega⟩) (gridOf_length ..) ?_ rfl
  · have := le32s_natAbs_le s.inputs 18 hwmin
    omega
  · rw [BitVec.toNat_ofNat, Nat.mod_eq_of_lt hword]
    omega

theorem execPbBlackout_inv : KeepsInv (execPbBlackout s) := by
  simp only [execPbBlackout]
  split
  · next hne =>
    have hcount : s.inputs.h * s.inputs.w ≤ s.cfg.pbCells := by
      rw [inputs_eq_sample hs]
      exact hs.dims.count_le
    refine .check hs fun hin => .setImage hs (blackRows_wf hs.memories.pb_wf ..) ?_
      (not_overCapacity_iff.mpr ⟨hs.dims.h_le, hs.dims.w_le, hs.dims.count_le⟩) hs.offset
    exact blackRows_below hs.memories.pb_below hne.2 (by omega) ((Nat.mul_le_mul_right _ (by omega)).trans hcount)
  · exact .setResults hs hs.outLen

theorem execGauss_inv : KeepsInv (execGauss s) := by
  refine .check hs fun _ => ?_
  split
  · exact .fail hs _
  · exact .paint hs ((List.length_filterMap_le ..).trans (gridOf_length ..).le)

theorem execPngParse_inv : KeepsInv (execPngParse s) := by
  refine .check hs fun _ => .check hs fun hdst => .check hs fun _ => ?_
  split
  · exact .fail hs _
  · exact .check hs fun hcap => .emit hs (ops := s.ops) hdst (by omega) rfl rfl

theorem execSlDefilter_inv : KeepsInv (execSlDefilter s) := by
  refine .check hs fun _ => .check hs fun hcap => .check hs fun _ => ?_
  split
  · exact .fail hs _
  · refine .buildImage hs (res := s.res) hcap ?_ (by decide) rfl
    rw [pixelsOf_length, defilterRows_length]
    have : s.inputs.dimH * (3 * s.inputs.dimW) = 3 * (s.inputs.dimH * s.inputs.dimW) := Nat.mul_left_comm ..
    omega

theorem execA7Merge_inv (n : Nat) : KeepsInv (execA7Merge n s) := by
  refine .check hs fun _ => .check hs fun _ => .check hs fun hcap => ?_
  split
  · exact .fail hs _
  · exact .check hs fun _ => .buildImage hs (res := s.res) hcap (gridOf_length ..) (by decide) rfl

/-- Every command keeps the invariant. -/
theorem exec_inv (i : Instr) : KeepsInv (exec i s) := by
  have hempty : ¬ overCapacity s.cfg 0 0 := not_overCapacity_iff.mpr ⟨by omega, by omega, by omega⟩
  have hpaint (f : Nat → Nat → Pixel) : KeepsInv (s.paint (s.inputs.image f)).ok := .paint hs (image_length ..).le
  cases i with
  | nop => exact .setResults hs hs.outLen
  | pbClear => exact .setImage hs hs.memories.pb_wf hs.memories.pb_below hempty (Nat.le_refl 54)
  | pbAlloc =>
    exact .check hs fun hcap => .setImage hs (Memory.forget_wf hs.memories.pb_wf _)
      (Memory.forget_below hs.memories.pb_below _) hcap (Nat.le_refl 54)
  | pbLoadRgb =>
    exact .check hs fun _ => .check hs fun hcap => .check hs fun _ =>
      .buildImage hs (res := s.res) hcap (gridOf_length ..) (by decide) rfl
  | pbStoreRgb =>
    refine .check hs fun hdst => .check hs fun hcap => .emit hs (ops := s.ops) hdst (by omega) ?_ rfl
    rw [flatMap_bytes_length, image_length, Nat.mul_assoc]
  | pbBlackout => exact execPbBlackout_inv hs
  | pbGrey | pbGreyLuma | pbColorMask | pbSepia | pbReflectH | pbReflectV | conv3 _ | edges => exact hpaint _
  | bmpDecode => exact execBmpDecode_inv hs
  | bmpEncode =>
    exact .check hs fun hdst => .check hs fun hcap => .emit hs (ops := s.ops) hdst (by omega) (bmpFile_length ..) rfl
  | gauss => exact execGauss_inv hs
  | pngParse => exact execPngParse_inv hs
  | crc32 => exact .check hs fun _ => .setResults hs hs.outLen
  | slFilter t =>
    exact .check hs fun hdst => .check hs fun _ => .check hs fun hcap =>
      .emit hs (ops := s.ops) hdst (by omega) (scanlines_length ..) rfl
  | slDefilter => exact execSlDefilter_inv hs
  | a7Split =>
    exact .check hs fun hdst => .check hs fun hcap =>
      .emit hs (n := 3 * s.inputs.h * s.inputs.w) hdst (by omega) (a7Stream_length _) rfl
  | a7Merge n => exact execA7Merge_inv hs n

theorem runCommand_inv (w : Word) : KeepsInv (runCommand w s) := by
  unfold runCommand
  split
  · exact exec_inv hs _
  · exact .fail hs _

end

end Sys2Proof.Machine

/-! SUPPORT. The safe-state invariant over a turn of the host. -/

namespace Sys2Proof.Machine

/-- The invariant speaks of these parts of the state only. -/
theorem inv_congr {s t : State} (hs : s.Inv) (hcfg : t.cfg = s.cfg) (hlen : t.res.outLen = s.res.outLen)
    (hpb : t.pb = s.pb) (hbm : t.bm = s.bm) (hgw : t.gw = s.gw) (hcodes : t.status.codesOk) (hengine : t.engineOk) :
    t.Inv where
  memories := by
    obtain ⟨h1, h2, h3, h4, h5, h6⟩ := hs.memories
    constructor <;> simpa only [hcfg, hpb, hbm, hgw]
  dims := by
    obtain ⟨h1, h2, h3⟩ := hs.dims
    constructor <;> simpa only [hcfg, hpb]
  codes := hcodes
  engine := hengine
  offset := hpb ▸ hs.offset
  outLen := by rw [hcfg, hlen]; exact hs.outLen

theorem engineOk_of_idle {s : State} (h : s.busy = false) : s.engineOk := by
  rw [State.engineOk, engine_eq_none h]
  trivial

section
variable {s : State} (hs : s.Inv)
include hs

theorem setBuserr_inv : s.setBuserr.Inv := inv_congr hs rfl rfl rfl rfl rfl hs.codes hs.engine

theorem setHaz_inv : s.setHaz.Inv := inv_congr hs rfl rfl rfl rfl rfl hs.codes hs.engine

theorem setPixerr_inv : s.setPixerr.Inv := inv_congr hs rfl rfl rfl rfl rfl hs.codes hs.engine

/-- The host's own side is no part of the invariant. -/
theorem hostSide_inv (host : List HostEvent) (busData : Word) (draws : Nat) :
    State.Inv { s with host := host, busData := busData, draws := draws } :=
  inv_congr hs rfl rfl rfl rfl rfl hs.codes hs.engine

theorem busRead_inv (addr : Word) : (s.busRead addr).Inv := by
  unfold State.busRead
  split
  · exact hostSide_inv (setBuserr_inv hs) ..
  · split
    · exact hostSide_inv (setHaz_inv hs) ..
    · next t _ _ =>
      rcases readEffect_cases t s with h | h <;> rw [h]
      · exact hostSide_inv hs ..
      · exact hostSide_inv (setPixerr_inv hs) ..

theorem w1c_inv (v : Word) : State.Inv { s with status := s.status.w1c v } := by
  refine inv_congr hs rfl rfl rfl rfl rfl hs.codes ?_
  have hengine := hs.engine
  unfold State.engineOk at hengine ⊢
  split
  · trivial
  · next e he =>
    obtain ⟨hin, hword, hdone, herr⟩ : e.inputs = s.sample ∧ e.word = s.cmd ∧ s.status.done = false ∧
        s.status.errClass = 0 := by rwa [he] at hengine
    exact ⟨hin, hword, by rw [Status.w1c_done, hdone, Bool.false_and], herr⟩

theorem softReset_inv : s.softReset.Inv where
  memories := ⟨hs.1.1, hs.1.2, hs.1.3, hs.1.4, hs.1.5, hs.1.6⟩
  dims := ⟨Nat.zero_le _, Nat.zero_le _, Nat.zero_le _⟩
  codes := .inl ⟨rfl, rfl, rfl⟩
  engine := trivial
  offset := Nat.le_refl 54
  outLen := Nat.zero_le _

omit hs in
/-- Right after a hardware reset, whatever the memories' epochs are. -/
theorem hardReset_inv : s.hardReset.Inv where
  memories := ⟨s.bm.powerUp_wf, s.gw.powerUp_wf, s.pb.cells.powerUp_wf, s.bm.powerUp_below _, s.gw.powerUp_below _,
    s.pb.cells.powerUp_below _⟩
  dims := ⟨Nat.zero_le _, Nat.zero_le _, Nat.zero_le _⟩
  codes := .inl ⟨rfl, rfl, rfl⟩
  engine := trivial
  offset := Nat.le_refl 54
  outLen := Nat.zero_le _

theorem accept_inv (v : Word) : (s.accept v).Inv :=
  inv_congr hs rfl rfl rfl rfl rfl (.inl ⟨rfl, rfl, rfl⟩) ⟨rfl, rfl, rfl, rfl⟩

theorem writePixel_inv (hb : s.busy = false) (v : Word) : (s.writePixel v).Inv := by
  unfold State.writePixel
  split
  · next hin =>
    have hlast := index_lt hin.1 hin.2
    have hcount := hs.dims.count_le
    have hbelow := Memory.write_below (vs := [Pixel.ofWord v]) hs.memories.pb_below
      (a := s.pixRow.toNat * s.pb.w.toNat + s.pixCol.toNat) (by rw [List.length_singleton]; omega)
    exact
      { memories := ⟨hs.1.1, hs.1.2, Memory.write_wf hs.1.3 _ _, hs.1.4, hs.1.5, hbelow⟩
        dims := ⟨hs.2.1, hs.2.2, hs.2.3⟩
        codes := hs.codes
        engine := engineOk_of_idle hb
        offset := hs.offset
        outLen := hs.outLen }
  · exact setPixerr_inv hs

/-- A register write that is served while BUSY = 0. -/
theorem writeReg_inv (hb : s.busy = false) (r : RegName) (v : Word) : (s.writeReg r v).Inv := by
  have idle {t : State} (ht : t.busy = false) (hcfg : t.cfg = s.cfg) (hres : t.res = s.res) (hpb : t.pb = s.pb)
      (hbm : t.bm = s.bm) (hgw : t.gw = s.gw) (hst : t.status = s.status) : t.Inv :=
    inv_congr hs hcfg (by rw [hres]) hpb hbm hgw (hst ▸ hs.codes) (engineOk_of_idle ht)
  cases r with
  | ctrl =>
    cases hv : v.getLsbD 1 with
    | true => rw [State.writeReg, writeCtrl_of_srst s hv]; exact softReset_inv hs
    | false => rw [State.writeReg, writeCtrl_of_not_srst s hv]; exact idle hb rfl rfl rfl rfl rfl rfl
  | status => exact w1c_inv hs v
  | cmd => exact accept_inv hs v
  | pixData => exact writePixel_inv hs hb v
  | _ => exact idle hb rfl rfl rfl rfl rfl rfl

/-- A write that is served while BUSY = 0, to any target. -/
theorem writeTarget_inv (hb : s.busy = false) (t : Target) (data : Word) (strobe : BitVec 4) :
    (s.writeTarget t data strobe).Inv := by
  obtain ⟨h1, h2, h3, h4, h5, h6⟩ := hs.memories
  cases t with
  | reg r => exact writeReg_inv hs hb r data
  | gw o =>
    exact { hs with
      memories := ⟨h1, writeLanes_wf h2 .., h3, h4, writeLanes_below h5 o data strobe, h6⟩
      dims := ⟨hs.2.1, hs.2.2, hs.2.3⟩, engine := engineOk_of_idle hb }
  | bm o =>
    exact { hs with
      memories := ⟨writeLanes_wf h1 .., h2, h3, writeLanes_below h4 o data strobe, h5, h6⟩
      dims := ⟨hs.2.1, hs.2.2, hs.2.3⟩, engine := engineOk_of_idle hb }

theorem busWrite_inv (addr data : Word) (strobe : BitVec 4) : (s.busWrite addr data strobe).Inv := by
  cases h : busAccess s.cfg addr with
  | none => rw [busWrite_unmapped h]; exact setBuserr_inv hs
  | some t =>
    cases hp : partialRegWrite t strobe with
    | true => rw [busWrite_partial h hp]; exact setBuserr_inv hs
    | false =>
      cases hb : s.busy with
      | false =>
        simp only [State.busWrite, h, hp, hb, Bool.false_and]
        exact writeTarget_inv hs hb t data strobe
      | true =>
        cases ht : writableWhileBusy t data with
        | false => rw [busWrite_hazard hb h hp ht]; exact setHaz_inv hs
        | true =>
          rcases writableWhileBusy_iff.mp ht with rfl | ⟨rfl, hv⟩ <;>
            obtain rfl : strobe = 0xF := by simpa [partialRegWrite] using hp
          · rw [eq_addr_of_busAccess h, busWrite_status]
            exact w1c_inv hs data
          · rw [eq_addr_of_busAccess h, busWrite_ctrl s hv]
            exact inv_congr hs rfl rfl rfl rfl rfl hs.codes hs.engine

theorem poll_inv : s.poll.Inv := by
  have h := busRead_inv hs RegName.status.addr
  rw [State.poll]
  split
  · exact hostSide_inv h ..
  · exact h

theorem serve_inv (ev : HostEvent) : (State.serve ev s).Inv := by
  cases ev with
  | read addr => exact busRead_inv hs addr
  | write addr data strobe => exact busWrite_inv hs addr data strobe
  | wait => exact poll_inv hs
  | hardReset => exact hardReset_inv

theorem hostTurn_inv : s.hostTurn.Inv := by
  unfold State.hostTurn
  split
  · exact hs
  · exact serve_inv (hostSide_inv hs ..) _

/-- Fewer turns of the host that are left. -/
theorem delay_inv {e : Running} (he : s.engine = some e) (d : Nat) :
    State.Inv { s with engine := some { e with delay := d } } := by
  refine inv_congr hs rfl rfl rfl rfl rfl hs.codes ?_
  have hengine := hs.engine
  rw [State.engineOk, he] at hengine
  exact hengine

end

end Sys2Proof.Machine

/-! The obligations on the safe-state invariant. -/

namespace Sys2Proof.Machine

/-- Settles O8: after reset no memory lists a cell and the image is empty. -/
theorem resetStateIsSafe : Obligations.ResetStateIsSafe := by
  have h (cfg : Config) : (State.resetWith cfg).Inv :=
    { memories := by constructor <;> simp [State.resetWith, Memory.wf, Memory.below]
      dims := ⟨Nat.zero_le _, Nat.zero_le _, Nat.zero_le _⟩
      codes := .inl ⟨rfl, rfl, rfl⟩
      engine := trivial
      offset := Nat.le_refl 54
      outLen := Nat.zero_le _ }
  exact ⟨h _, h⟩

/-- Settles O9, by the three kinds of step: a turn of the host keeps the invariant, with or without a running command, and
so does every completion. -/
theorem stepKeepsSafeStates : Obligations.StepKeepsSafeStates := by
  intro s t hs hstep
  cases he : s.engine with
  | none =>
    rw [step_of_idle he] at hstep
    cases hstep
    exact hostTurn_inv hs
  | some e =>
    cases hd : e.delay with
    | zero =>
      rw [step_of_due he hd] at hstep
      exact runCommand_inv hs e.word t hstep
    | succ d =>
      rw [step_of_waiting he hd] at hstep
      cases hstep
      exact hostTurn_inv (delay_inv hs he d)

end Sys2Proof.Machine

/-! SUPPORT. Commands that paint every pixel of the image from a function of it, and the arithmetic of a channel
(40_pixelbuffer.md R215 to R227). -/

namespace Sys2Proof.Machine

/-- A command that paints the image completes, with the function's pixels in the image and every other cell as it was. -/
theorem exists_paint {i : Instr} {s : State} {f : Nat → Nat → Pixel} (h : exec i s = (s.paint (s.inputs.image f)).ok) :
    ∃ t, exec i s = .next t ∧ PixelFrame s t ∧
      ∀ r c, r < s.inputs.h → c < s.inputs.w → t.pb.cell (r * s.inputs.w + c) = f r c :=
  ⟨_, h, paint_frame s f, fun _ _ hr hc => paint_grid_at s f hr hc⟩

/-- `ToByte` of an integer as a number (00_scope.md R10). -/
theorem channel_toNat (x : Int) : ((channel x).toNat : Int) = min (max x 0) 255 := by
  rw [channel, clamp, BitVec.toNat_ofNat, Nat.mod_eq_of_lt (by omega)]
  omega

theorem channel_natCast_toNat (n : Nat) : (channel n).toNat = min n 255 := by
  have := channel_toNat n
  omega

/-- A channel is the byte whose number the clamp gives. -/
theorem channel_eq_iff (x : Int) (v : Byte) : channel x = v ↔ min (max x 0) 255 = (v.toNat : Int) := by
  rw [← BitVec.toNat_inj, ← Nat.cast_inj (R := Int), channel_toNat]

/-- The corner cases of 40_pixelbuffer.md R220. -/
theorem maskChannel_of_neg {f : Int} (h : f < 0) (v : Byte) : maskChannel f v = 0 := by
  have hprod : (v.toNat : Int) * f ≤ 0 := mul_nonpos_of_nonneg_of_nonpos (Int.natCast_nonneg _) h.le
  refine (channel_eq_iff _ _).mpr ?_
  rw [show ((0 : Byte).toNat : Int) = 0 from rfl]
  omega

theorem maskChannel_one (v : Byte) : maskChannel 0x100 v = v := by
  have := v.isLt
  exact (channel_eq_iff _ _).mpr (by omega)

theorem maskChannel_max {v : Byte} (h : 2 ≤ v.toNat) : maskChannel 0x7FFF v = 255 := by
  refine (channel_eq_iff _ _).mpr ?_
  rw [show ((255 : Byte).toNat : Int) = 255 from rfl]
  omega

/-- One less on LUMA_EXC, as a choice of two levels (40_pixelbuffer.md R216). -/
theorem lumaLevel_eq (p : Pixel) : lumaLevel p =
    if (p.r.toNat, p.g.toNat, p.b.toNat) ∈ lumaExc
      then (2126 * p.r.toNat + 7152 * p.g.toNat + 722 * p.b.toNat + 5000) / 30000 - 1
      else (2126 * p.r.toNat + 7152 * p.g.toNat + 722 * p.b.toNat + 5000) / 30000 := by
  simp only [lumaLevel, List.contains_iff_mem]
  split <;> rfl

/-- On every member of LUMA_EXC the exact value is a positive integer (40_pixelbuffer.md R217). -/
theorem lumaExc_exact : ∀ q ∈ lumaExc, (2126 * q.1 + 7152 * q.2.1 + 722 * q.2.2 + 5000) % 30000 = 0 ∧
    30000 ≤ 2126 * q.1 + 7152 * q.2.1 + 722 * q.2.2 + 5000 := by
  decide +kernel

/-! ### Mirrors -/

/-- `m` maps 0..n-1 to itself and is its own inverse there, for every n. -/
def Mirror (m : Nat → Nat → Nat) : Prop := ∀ n k, k < n → m n k < n ∧ m n (m n k) = k

theorem mirror_reverse : Mirror fun n k => n - 1 - k := fun n k _ =>
  ⟨show n - 1 - k < n by omega, Nat.sub_sub_self (by omega)⟩

theorem mirror_id : Mirror fun _ k => k := fun _ _ hk => ⟨hk, rfl⟩

/-- Row and column of an index of the grid. -/
theorem exists_row_col {h w i : Nat} (hi : i < h * w) : ∃ r c, r < h ∧ c < w ∧ i = r * w + c := by
  have hw : 0 < w := Nat.pos_of_ne_zero fun h0 => by simp [h0] at hi
  exact ⟨i / w, i % w, Nat.div_lt_of_lt_mul (by rwa [Nat.mul_comm] at hi), Nat.mod_lt _ hw, (Nat.div_add_mod' i w).symm⟩

/-- With no command running, the snapshot is the live image. -/
theorem inputs_pb_of_idle {s : State} (h : s.engine = none) : s.inputs.pb = s.pb := by
  rw [s.inputs_of_idle h, State.sample]

/-- A command that mirrors rows and columns, run twice, leaves every cell as it was (40_pixelbuffer.md R226, R227). -/
theorem mirror_twice {i : Instr} {row col : Nat → Nat → Nat} (hrow : Mirror row) (hcol : Mirror col)
    (hexec : ∀ s, exec i s = (s.paint (s.inputs.image fun r c =>
      s.inputs.px (row s.inputs.h r) (col s.inputs.w c))).ok)
    {s t u : State} (hs : s.engine = none) (ht : exec i s = .next t) (hu : exec i t = .next u) (k : Nat) :
    u.pb.cell k = s.pb.cell k := by
  obtain ⟨t', ht', ft, hpt⟩ := exists_paint (hexec s)
  obtain rfl : t' = t := Host.Outcome.next.inj (ht'.symm.trans ht)
  obtain ⟨u', hu', fu, hpu⟩ := exists_paint (hexec t')
  obtain rfl : u' = u := Host.Outcome.next.inj (hu'.symm.trans hu)
  have hidle := engine_eq_none ft.idle
  have hth : t'.inputs.h = s.inputs.h := by simp only [Inputs.h, inputs_pb_of_idle hidle, inputs_pb_of_idle hs, ft.pbH]
  have htw : t'.inputs.w = s.inputs.w := by simp only [Inputs.w, inputs_pb_of_idle hidle, inputs_pb_of_idle hs, ft.pbW]
  have hpx (r c : Nat) : t'.inputs.px r c = t'.pb.cell (r * s.inputs.w + c) := by
    rw [← htw, Inputs.px, Inputs.w, inputs_pb_of_idle hidle, PixelBuffer.px]
  rw [hth, htw] at hpu
  by_cases hk : k < s.inputs.h * s.inputs.w
  · obtain ⟨r, c, hr, hc, rfl⟩ := exists_row_col hk
    obtain ⟨hr', hrr⟩ := hrow _ _ hr
    obtain ⟨hc', hcc⟩ := hcol _ _ hc
    rw [hpu _ _ hr hc, hpx, hpt _ _ hr' hc', hrr, hcc, Inputs.px, Inputs.w,
      inputs_pb_of_idle hs, PixelBuffer.px]
  · rw [fu.outside k (by rw [hth, htw]; omega), ft.outside k (by omega)]

end Sys2Proof.Machine

/-! The obligations of 40_pixelbuffer.md on the filters. -/

namespace Sys2Proof.Machine

/-- Settles O32: PB_GREY paints every pixel, and 230 is the level of white. -/
theorem greyScaleOfEveryPixel : Obligations.GreyScaleOfEveryPixel :=
  ⟨by decide, fun r g b hr hg hb => by omega, fun _ => exists_paint rfl⟩

/-- Settles O33: PB_GREY_LUMA paints every pixel, and the list of R217 is checked member by member. -/
theorem greyLumaOfEveryPixel : Obligations.GreyLumaOfEveryPixel := by
  refine ⟨by decide, lumaExc_exact, by decide +kernel, fun s => ?_⟩
  obtain ⟨t, ht, frame, hpx⟩ := exists_paint (i := .pbGreyLuma) (s := s) rfl
  refine ⟨t, ht, frame, fun r c hr hc => ?_⟩
  rw [hpx r c hr hc, greyOf, lumaLevel_eq]

/-- Settles O34: PB_COLOR_MASK paints every pixel, and a channel is the clamp of its product. -/
theorem colorMaskOfEveryPixel : Obligations.ColorMaskOfEveryPixel := by
  refine ⟨by decide, fun v f => ⟨fun hf => maskChannel_of_neg hf v, maskChannel_one v, maskChannel_max⟩, fun s => ?_⟩
  obtain ⟨t, ht, frame, hpx⟩ := exists_paint (i := .pbColorMask) (s := s) rfl
  refine ⟨t, ht, frame, fun r c hr hc => ?_⟩
  rw [hpx r c hr hc]
  exact ⟨channel_toNat _, channel_toNat _, channel_toNat _⟩

/-- Settles O35: PB_SEPIA paints every pixel, and a channel is the clamp of its row's product. -/
theorem sepiaOfEveryPixel : Obligations.SepiaOfEveryPixel := by
  refine ⟨by decide, fun s => ?_⟩
  obtain ⟨t, ht, frame, hpx⟩ := exists_paint (i := .pbSepia) (s := s) rfl
  refine ⟨t, ht, frame, fun r c hr hc => ?_⟩
  rw [hpx r c hr hc]
  exact ⟨channel_natCast_toNat _, channel_natCast_toNat _, channel_natCast_toNat _⟩

/-- Settles O36: both reflections paint a mirror of the image, and a mirror is its own inverse. -/
theorem reflectionsAreMirrors : Obligations.ReflectionsAreMirrors := by
  refine ⟨by decide, by decide, fun i s t u hi hs ht hu k => ?_, fun s => ⟨exists_paint rfl, exists_paint rfl⟩⟩
  rcases hi with rfl | rfl
  · exact mirror_twice mirror_id mirror_reverse (fun _ => rfl) hs ht hu k
  · exact mirror_twice mirror_reverse mirror_id (fun _ => rfl) hs ht hu k

end Sys2Proof.Machine

/-! SUPPORT. The taps of the 3x3 convolution as a sum over the nine kernel elements (42_convolution.md R300 to R304). -/

namespace Sys2Proof.Machine

/-- The neighbour under kernel element i, in naturals (42_convolution.md R300, R301). -/
theorem tap_eq (x : Inputs) (r c i : Nat) :
    tap x.h x.w r c i = if validTap x r c i then some (r + i / 3 - 1, c + i % 3 - 1) else none := by
  have hr : (r : Int) + tapRow i = (r + i / 3 : Nat) - 1 := by rw [tapRow]; omega
  have hc : (c : Int) + tapCol i = (c + i % 3 : Nat) - 1 := by rw [tapCol]; omega
  simp only [tap]
  by_cases h : validTap x r c i
  · rw [if_pos h, if_pos (by omega)]
    exact congrArg some (Prod.ext (by omega) (by omega))
  · rw [if_neg h, if_neg (by omega)]

/-- A sum over the elements for which `g` has a value. -/
theorem sum_filterMap {ι β : Type} (l : List ι) (g : ι → Option β) (f : β → Int) :
    ((l.filterMap g).map f).sum = (l.map fun i => ((g i).map f).getD 0).sum := by
  induction l with
  | nil => rfl
  | cons i l ih => cases h : g i <;> simp [h, ih]

/-- A sum over the valid neighbours of (r, c) is a sum over the kernel elements that have one. -/
theorem sum_taps (x : Inputs) (r c : Nat) (f : Nat × Nat × Nat → Int) :
    ((taps x.h x.w r c).map f).sum =
      ∑ i ∈ Finset.range 9, if validTap x r c i then f (i, r + i / 3 - 1, c + i % 3 - 1) else 0 := by
  rw [taps, sum_filterMap]
  refine congrArg List.sum (List.map_congr_left (g := fun i =>
    if validTap x r c i then f (i, r + i / 3 - 1, c + i % 3 - 1) else 0) fun i _ => ?_)
  rw [tap_eq]
  split <;> rfl

/-- The weighted sum over the valid neighbours (42_convolution.md R301). -/
theorem tapSum_eq_validSum (x : Inputs) (weight : Nat → Int) (r c ch : Nat) :
    x.tapSum weight r c ch = validSum x weight r c ch :=
  sum_taps x r c fun q => weight q.1 * ((x.px q.2.1 q.2.2).ch ch).toNat

/-- The number of valid neighbours (42_convolution.md R301). -/
theorem tapCount_eq_validCount (x : Inputs) (r c : Nat) : tapCount x.h x.w r c = validCount x r c := by
  have h := sum_taps x r c fun _ => 1
  rw [validCount, Finset.card_filter, ← Nat.cast_inj (R := Int), Nat.cast_sum]
  simpa [tapCount] using h

/-- How many of the three lines around line k lie in an image of n lines. -/
def lineCount (n k : Nat) : Nat := ∑ a ∈ Finset.range 3, if 1 ≤ k + a ∧ k + a ≤ n then 1 else 0

/-- A neighbour is valid when its row and its column are, so the count is a product. -/
theorem validCount_eq_mul (x : Inputs) (r c : Nat) : validCount x r c = lineCount x.h r * lineCount x.w c := by
  have hvalid (i : Nat) : (if validTap x r c i then 1 else 0) =
      (if 1 ≤ r + i / 3 ∧ r + i / 3 ≤ x.h then 1 else 0) * (if 1 ≤ c + i % 3 ∧ c + i % 3 ≤ x.w then 1 else 0) := by
    rw [ite_zero_mul_ite_zero, Nat.mul_one]
    exact if_congr and_assoc.symm rfl rfl
  simp only [validCount, Finset.card_filter, hvalid, lineCount, Finset.sum_range_succ, Finset.sum_range_zero]
  ring

/-- Around a line of the image there are 1 to 3 lines, and 2 or 3 in an image of at least 2 (42_convolution.md R304). -/
theorem lineCount_cases {n k : Nat} (hk : k < n) :
    lineCount n k = 2 ∨ lineCount n k = 3 ∨ (lineCount n k = 1 ∧ n < 2) := by
  simp only [lineCount, Finset.sum_range_succ, Finset.sum_range_zero]
  split <;> split <;> split <;> omega

/-- One product of the accumulator: a kernel element fits 8 bits signed, a channel 8 bits. -/
theorem kernel_mul_le (k v : Byte) : |k.toInt * v.toNat| ≤ 128 * 255 := by
  have hv := v.isLt
  have hlo := k.le_toInt
  have hhi := k.toInt_lt
  rw [abs_mul]
  refine mul_le_mul (abs_le.mpr ⟨?_, ?_⟩) (abs_le.mpr ⟨?_, ?_⟩) (abs_nonneg _) (by norm_num) <;> norm_num at * <;> omega

/-- The kernel sum fits 20 bits signed (42_convolution.md R304). -/
theorem abs_tapSum_kernel_le (x : Inputs) (r c ch : Nat) : |x.tapSum x.kernel r c ch| ≤ 293760 := by
  rw [tapSum_eq_validSum, validSum]
  refine (Finset.abs_sum_le_sum_abs _ _).trans ((Finset.sum_le_card_nsmul _ _ (128 * 255) fun i _ => ?_).trans ?_)
  · split
    · exact kernel_mul_le _ _
    · norm_num
  · norm_num

end Sys2Proof.Machine

/-! SUPPORT. The square root of EDGES (00_scope.md R10, 42_convolution.md R311). -/

namespace Sys2Proof.Machine

/-- The bit search ends at the root when the root lies in the interval it starts from. -/
theorem isqrtBits_spec {n : Nat} (k : Nat) {r : Nat} (hlo : r * r ≤ n) (hhi : n < (r + 2 ^ k) * (r + 2 ^ k)) :
    isqrtBits n k r * isqrtBits n k r ≤ n ∧ n < (isqrtBits n k r + 1) * (isqrtBits n k r + 1) := by
  induction k generalizing r with
  | zero => exact ⟨hlo, hhi⟩
  | succ k ih =>
    rw [Nat.pow_succ, Nat.mul_two, ← Nat.add_assoc] at hhi
    rw [isqrtBits]
    split
    · next h => exact ih h hhi
    · next h => exact ih hlo (Nat.lt_of_not_le h)

/-- isqrt is "the largest integer r with r*r <= n" (00_scope.md R10). -/
theorem isqrt_spec (n : Nat) : isqrt n * isqrt n ≤ n ∧ n < (isqrt n + 1) * (isqrt n + 1) := by
  refine isqrtBits_spec _ (Nat.zero_le n) ?_
  rw [Nat.zero_add, ← Nat.pow_add]
  exact Nat.lt_log2_self.trans_le (Nat.pow_le_pow_right (by decide) (by omega))

theorem magnitude_le (s : Nat) : magnitude s ≤ 255 := Nat.min_le_left _ _

/-- Mag rounds the root to the nearest integer: n is the root's rounding exactly from n*n - n + 1 to n*n + n. -/
theorem magnitude_eq {s n : Nat} (hlo : n * n < s + n) (hhi : s ≤ n * n + n) : magnitude s = min 255 n := by
  obtain ⟨hq, hq'⟩ := isqrt_spec s
  rw [magnitude]
  generalize isqrt s = q at hq hq' ⊢
  have hn : n = q + if s - q * q > q then 1 else 0 := by
    split
    · next h => exact le_antisymm (by nlinarith) (by nlinarith [Nat.sub_add_cancel hq])
    · next h => exact le_antisymm (by nlinarith [Nat.sub_add_cancel hq]) (by nlinarith)
  rw [hn]

end Sys2Proof.Machine

/-! The obligations of 42_convolution.md on CONV3 and EDGES. -/

namespace Sys2Proof.Machine

theorem Pixel.ofCh_ch (f : Nat → Byte) {ch : Nat} (h : ch < 3) : (Pixel.ofCh f).ch ch = f ch := by
  interval_cases ch <;> rfl

/-- Settles O42: CONV3 paints every pixel from the sum and the count over the valid neighbours. -/
theorem convolutionOfEveryPixel : Obligations.ConvolutionOfEveryPixel := by
  refine ⟨by decide, by decide, fun norm s => ?_⟩
  obtain ⟨t, ht, frame, hpx⟩ := exists_paint (i := .conv3 norm) (s := s) rfl
  refine ⟨t, ht, frame, fun r c hr hc ch hch => ?_⟩
  rw [hpx r c hr hc, Pixel.ofCh_ch _ hch, tapSum_eq_validSum, tapCount_eq_validCount, convQuant]
  cases norm <;> exact channel_toNat _

/-- Settles O43: the count is a number of rows times a number of columns, and the sum has nine bounded terms. -/
theorem convolutionAccumulatorBounds : Obligations.ConvolutionAccumulatorBounds := by
  intro x r c ch hr hc
  have hsum := abs_tapSum_kernel_le x r c ch
  rw [Int.abs_eq_natAbs] at hsum
  rw [tapCount_eq_validCount, validCount_eq_mul x r c]
  rcases lineCount_cases hr with h | h | ⟨h, _⟩ <;> rcases lineCount_cases hc with h' | h' | ⟨h', _⟩ <;>
    rw [h, h'] <;> omega

/-- Settles O44: the bit search finds the root, and rounding it is choosing between it and its successor. -/
theorem magnitudeIsTheRoundedRoot : Obligations.MagnitudeIsTheRoundedRoot :=
  ⟨isqrt_spec, by decide, fun _ _ => magnitude_eq⟩

/-- Settles O45: EDGES paints every pixel from the two Sobel sums over the valid neighbours. -/
theorem edgesOverlayEveryPixel : Obligations.EdgesOverlayEveryPixel := by
  refine ⟨by decide, fun s => ?_⟩
  obtain ⟨t, ht, frame, hpx⟩ := exists_paint (i := .edges) (s := s) rfl
  refine ⟨t, ht, frame, fun r c hr hc ch hch => ?_⟩
  rw [hpx r c hr hc, Pixel.ofCh_ch _ hch, Inputs.edgeMagnitude, tapSum_eq_validSum, tapSum_eq_validSum, edgeChannel]
  intro gx gy m o
  have hm : (BitVec.ofNat 8 m).toNat = m := Nat.mod_eq_of_lt (by have := magnitude_le (gx * gx + gy * gy).toNat; omega)
  calc _ = if 100 ≤ ((o : Int) - m).natAbs then (BitVec.ofNat 8 m).toNat else o := apply_ite BitVec.toNat ..
    _ = _ := by rw [hm]

end Sys2Proof.Machine

/-! SUPPORT. GAUSS pixel by pixel: its accumulator with the edge replication in integers, and the first pixel with a NaN
channel (42_convolution.md R320 to R323). -/

namespace Sys2Proof.Machine

/-- The clamp of a coordinate of the image to its edges, in integers as 42_convolution.md R323 writes it. -/
theorem edgeClamp_eq {n q : Nat} (hq : q < n) (i radius : Nat) :
    edgeClamp n q i radius = (min (max ((q : Int) + i - radius) 0) ((n : Int) - 1)).toNat := by
  unfold edgeClamp
  omega

theorem gaussAcc_eq (x : Inputs) (radius ch : Nat) {r c : Nat} (hr : r < x.h) (hc : c < x.w) :
    x.gaussAcc radius r c ch = gaussAccumulator x radius r c ch := by
  simp only [Inputs.gaussAcc, gaussAccumulator, Inputs.gaussTap, edgeClamp_eq hr, edgeClamp_eq hc, pow_two]
  rfl

theorem F64.toChannel_eq_none_iff (x : F64) : x.toChannel = none ↔ x = .nan := by
  rw [F64.toChannel]
  split <;> simp [*]

/-- A pixel is there when none of its three channels is a NaN, and then its channels are the rounded accumulators. -/
theorem gaussPixel_eq_some {x : Inputs} {radius r c : Nat} {p : Pixel} (h : x.gaussPixel radius r c = some p) :
    ∀ ch, ch < 3 → (x.gaussAcc radius r c ch).toChannel = some (p.ch ch) := by
  unfold Inputs.gaussPixel at h
  split at h
  · next vr vg vb hr hg hb =>
    cases h
    intro ch hch
    interval_cases ch
    · exact hr
    · exact hg
    · exact hb
  · cases h

theorem gaussPixel_eq_none_iff (x : Inputs) (radius r c : Nat) :
    x.gaussPixel radius r c = none ↔ ∃ ch, ch < 3 ∧ x.gaussAcc radius r c ch = .nan := by
  constructor
  · intro h
    unfold Inputs.gaussPixel at h
    split at h
    · cases h
    · next hall =>
      by_contra hnan
      have hsome (ch : Nat) (hch : ch < 3) : ∃ v, (x.gaussAcc radius r c ch).toChannel = some v :=
        Option.ne_none_iff_exists'.mp fun hn => hnan ⟨ch, hch, (F64.toChannel_eq_none_iff _).mp hn⟩
      obtain ⟨vr, hr⟩ := hsome 0 (by decide)
      obtain ⟨vg, hg⟩ := hsome 1 (by decide)
      obtain ⟨vb, hb⟩ := hsome 2 (by decide)
      exact hall vr vg vb hr hg hb
  · rintro ⟨ch, hch, hnan⟩
    refine Option.eq_none_iff_forall_ne_some.mpr fun p hp => ?_
    have := gaussPixel_eq_some hp ch hch
    rw [(F64.toChannel_eq_none_iff _).mpr hnan] at this
    cases this

theorem gaussPixel_isNone_iff (x : Inputs) (radius : Nat) {r c : Nat} (hr : r < x.h) (hc : c < x.w) :
    (x.gaussPixel radius r c).isNone ↔ ∃ ch, ch < 3 ∧ gaussAccumulator x radius r c ch = .nan := by
  simp only [Option.isNone_iff_eq_none, gaussPixel_eq_none_iff, gaussAcc_eq x radius _ hr hc]

/-- The first entry of a grid, in row-major order, with a property. -/
theorem gridOf_findIdx? {β : Type} {h w r c : Nat} {f : Nat → Nat → β} {p : β → Bool} (hr : r < h) (hc : c < w)
    (hp : p (f r c) = true)
    (hfirst : ∀ r' c', r' < h → c' < w → r' * w + c' < r * w + c → p (f r' c') = false) :
    (gridOf h w f).findIdx? p = some (r * w + c) := by
  have hlen : r * w + c < (gridOf h w f).length := by rw [gridOf_length]; exact index_lt hr hc
  have hget {i : Nat} (hi : i < (gridOf h w f).length) {r' c' : Nat} (hr' : r' < h) (hc' : c' < w)
      (hi' : i = r' * w + c') : (gridOf h w f)[i] = f r' c' := by
    subst hi'
    exact (List.getElem_eq_iff hi).mpr (gridOf_at f hr' hc')
  refine List.findIdx?_eq_some_iff_getElem.mpr ⟨hlen, (congrArg p (hget hlen hr hc rfl)).trans hp, fun j hj => ?_⟩
  obtain ⟨r', c', hr', hc', hij⟩ := exists_row_col (h := h) (w := w) (hj.trans (index_lt hr hc))
  rw [hget (hj.trans hlen) hr' hc' hij, hfirst r' c' hr' hc' (hij ▸ hj)]
  exact Bool.false_ne_true

/-- A grid all of whose entries are there. -/
theorem gridOf_some {β : Type} {h w : Nat} {f : Nat → Nat → Option β} {g : Nat → Nat → β}
    (hfg : ∀ r, r < h → ∀ c, c < w → f r c = some (g r c)) :
    (gridOf h w f).findIdx? Option.isNone = none ∧ (gridOf h w f).filterMap id = gridOf h w g := by
  have hgrid : gridOf h w f = (gridOf h w g).map some := by
    rw [gridOf_congr hfg]
    simp [gridOf]
  rw [hgrid]
  simp

/-- GAUSS within its radius limit (42_convolution.md R320). -/
theorem exec_gauss_in {s : State} (h : s.inputs.ops.gaussR.toNat ≤ s.cfg.gaussRmax) :
    exec .gauss s =
      let pixels := gridOf s.inputs.h s.inputs.w fun r c => s.inputs.gaussPixel s.inputs.ops.gaussR.toNat r c
      match pixels.findIdx? Option.isNone with
      | some i => s.fail (.nonfinite i)
      | none => (s.paint (pixels.filterMap id)).ok :=
  (if_neg (Nat.not_lt.mpr h)).trans rfl

theorem exec_gauss_nonfinite {s : State} (h : s.inputs.ops.gaussR.toNat ≤ s.cfg.gaussRmax) {i : Nat}
    (hi : (gridOf s.inputs.h s.inputs.w fun r c => s.inputs.gaussPixel s.inputs.ops.gaussR.toNat r c).findIdx?
      Option.isNone = some i) : exec .gauss s = s.fail (.nonfinite i) := by
  rw [exec_gauss_in h]
  simp only [hi]

theorem exec_gauss_done {s : State} (h : s.inputs.ops.gaussR.toNat ≤ s.cfg.gaussRmax) {g : Nat → Nat → Pixel}
    (hg : ∀ r, r < s.inputs.h → ∀ c, c < s.inputs.w →
      s.inputs.gaussPixel s.inputs.ops.gaussR.toNat r c = some (g r c)) :
    exec .gauss s = (s.paint (s.inputs.image g)).ok := by
  obtain ⟨hnone, hall⟩ := gridOf_some hg
  rw [exec_gauss_in h]
  simp only [hnone, hall]
  rfl

/-! ### The kernel of radius 0 and weight 1.0 -/

/-- 1.0 times a channel, added to +0.0 and rounded, is the channel. -/
theorem unit_weight_toChannel : ∀ v : Byte,
    (((F64.fin false 0 0).add ((F64.ofBits 0x3FF0000000000000).mul (F64.ofNat v.toNat))).toChannel = some v) := by
  decide +kernel

theorem gaussAccumulator_radius_zero (x : Inputs) (ch : Nat) {r c : Nat} (hr : r < x.h) (hc : c < x.w) :
    gaussAccumulator x 0 r c ch =
      (F64.fin false 0 0).add ((F64.ofBits (x.gwBits 0)).mul (F64.ofNat ((x.px r c).ch ch).toNat)) := by
  rw [← gaussAcc_eq x 0 ch hr hc]
  simp [Inputs.gaussAcc, Inputs.gaussTap, edgeClamp, Inputs.weight, Nat.min_eq_left (show r ≤ x.h - 1 by omega),
    Nat.min_eq_left (show c ≤ x.w - 1 by omega), F64.ofNat]

theorem Pixel.ext_ch {p q : Pixel} (h : ∀ ch, ch < 3 → p.ch ch = q.ch ch) : p = q := by
  have h0 := h 0 (by decide)
  have h1 := h 1 (by decide)
  have h2 := h 2 (by decide)
  cases p
  cases q
  simp_all [Pixel.ch]

end Sys2Proof.Machine

/-! The obligations of 42_convolution.md on GAUSS. -/

namespace Sys2Proof.Machine

/-- Settles O46: the radius check, the first pixel that is not there, and the paint of all pixels when each is. -/
theorem gaussEvaluatesEveryPixel : Obligations.GaussEvaluatesEveryPixel := by
  refine ⟨by decide, fun s => ?_⟩
  intro x radius nan
  have hnone {r c : Nat} (hr : r < x.h) (hc : c < x.w) := gaussPixel_isNone_iff x radius hr hc
  refine ⟨fun h => if_pos h, fun h r c hr hc hnan hfirst => ?_, fun h hall => ?_⟩
  · refine exec_gauss_nonfinite h (gridOf_findIdx? hr hc ((hnone hr hc).mpr hnan) fun r' c' hr' hc' hlt => ?_)
    exact Bool.eq_false_of_not_eq_true fun h => hfirst r' c' hr' hc' hlt ((hnone hr' hc').mp h)
  · have hsome (r : Nat) (hr : r < x.h) (c : Nat) (hc : c < x.w) :
        x.gaussPixel radius r c = some ((x.gaussPixel radius r c).getD ⟨0, 0, 0⟩) := by
      cases hp : x.gaussPixel radius r c with
      | none => exact absurd ((hnone hr hc).mp (by rw [hp]; rfl)) (hall r c hr hc)
      | some p => rfl
    obtain ⟨t, ht, frame, hpx⟩ := exists_paint (exec_gauss_done h hsome)
    refine ⟨t, ht, frame, fun r c hr hc ch hch => ?_⟩
    rw [hpx r c hr hc, ← gaussAcc_eq x radius ch hr hc, gaussPixel_eq_some (hsome r hr c hc) ch hch]

/-- Settles O47, from O46: the one product of each channel rounds to the channel, so none is a NaN. -/
theorem gaussUnitKernelIsTheIdentity : Obligations.GaussUnitKernelIsTheIdentity := by
  intro s hidle hradius hweight
  have hR : s.inputs.ops.gaussR.toNat = 0 := by rw [s.inputs_of_idle hidle, State.sample, hradius]; rfl
  have hacc {r c : Nat} (hr : r < s.inputs.h) (hc : c < s.inputs.w) (ch : Nat) :
      (gaussAccumulator s.inputs 0 r c ch).toChannel = some ((s.inputs.px r c).ch ch) := by
    rw [gaussAccumulator_radius_zero s.inputs ch hr hc, hweight, unit_weight_toChannel]
  obtain ⟨-, hgauss⟩ := gaussEvaluatesEveryPixel
  obtain ⟨-, -, hdone⟩ := hgauss s
  rw [hR] at hdone
  obtain ⟨t, ht, frame, hpx⟩ := hdone (Nat.zero_le _) fun r c hr hc ⟨ch, _, hnan⟩ => by
    have := hacc hr hc ch
    rw [hnan] at this
    cases this
  refine ⟨t, ht, frame, fun k => ?_⟩
  by_cases hk : k < s.inputs.h * s.inputs.w
  · obtain ⟨r, c, hr, hc, rfl⟩ := exists_row_col hk
    have hcell : t.pb.cell (r * s.inputs.w + c) = s.inputs.px r c := Pixel.ext_ch fun ch hch =>
      Option.some.inj ((hpx r c hr hc ch hch).trans (hacc hr hc ch))
    rw [hcell, Inputs.px, Inputs.w, inputs_pb_of_idle hidle, PixelBuffer.px]
  · exact frame.outside k (by omega)

end Sys2Proof.Machine

/-! SUPPORT. The BMP codec: the file of BMP_ENCODE byte by byte, the words it holds, and how BMP_DECODE ends once its checks
have passed (41_bmp.md R250 to R263). -/

namespace Sys2Proof.Machine

/-! ### The encoded file -/

theorem bmpRow_length (x : Inputs) (i : Nat) : (x.bmpRow i).length = bmpStride x.w := by
  rw [Inputs.bmpRow, List.length_append, List.length_replicate, flatMap_length _ _ 3 fun _ _ => rfl, List.length_range,
    Nat.mul_comm, bmpStride]

/-- Byte k of pixel j in a file row, in B, G, R order (41_bmp.md R263). -/
theorem bmpRow_pixel (x : Inputs) (i : Nat) {j k : Nat} (hj : j < x.w) (hk : k < 3) :
    (x.bmpRow i)[3 * j + k]? = [(x.px i j).b, (x.px i j).g, (x.px i j).r][k]? := by
  have hlen := flatMap_length (List.range x.w) (fun j => [(x.px i j).b, (x.px i j).g, (x.px i j).r]) 3 fun _ _ => rfl
  rw [List.length_range] at hlen
  rw [Inputs.bmpRow, List.getElem?_append_left (by omega), Nat.mul_comm,
    flatMap_getElem? (n := 3) _ _ (fun _ => rfl) _ hk, List.getElem?_range hj, Option.bind_some]

/-- The pad bytes of a file row are zero (41_bmp.md R263). -/
theorem bmpRow_pad (x : Inputs) (i : Nat) {q : Nat} (hlo : 3 * x.w ≤ q) (hhi : q < bmpStride x.w) :
    (x.bmpRow i)[q]? = some 0 := by
  have hlen := flatMap_length (List.range x.w) (fun j => [(x.px i j).b, (x.px i j).g, (x.px i j).r]) 3 fun _ _ => rfl
  rw [List.length_range] at hlen
  rw [bmpStride] at hhi
  rw [Inputs.bmpRow, List.getElem?_append_right (by omega), List.getElem?_replicate, if_pos (by omega)]

/-- The 32-bit fields of the header, least significant byte first (41_bmp.md R262). -/
theorem bmpHeader_words (n w h : Nat) : ∀ k, k < 4 →
    (bmpHeader n w h)[2 + k]? = some (BitVec.ofNat 8 (n / 256 ^ k)) ∧ (bmpHeader n w h)[6 + k]? = some 0 ∧
    (bmpHeader n w h)[10 + k]? = some (BitVec.ofNat 8 (54 / 256 ^ k)) ∧
    (bmpHeader n w h)[14 + k]? = some (BitVec.ofNat 8 (40 / 256 ^ k)) ∧
    (bmpHeader n w h)[18 + k]? = some (BitVec.ofNat 8 (w / 256 ^ k)) ∧
    (bmpHeader n w h)[22 + k]? = some (BitVec.ofNat 8 (h / 256 ^ k)) := by
  intro k hk
  interval_cases k <;> exact ⟨rfl, rfl, rfl, rfl, rfl, rfl⟩

/-- The 16-bit fields of the header, and the zero bytes after them (41_bmp.md R262). -/
theorem bmpHeader_halves (n w h : Nat) :
    (∀ k, k < 2 → (bmpHeader n w h)[26 + k]? = some (BitVec.ofNat 8 (1 / 256 ^ k)) ∧
      (bmpHeader n w h)[28 + k]? = some (BitVec.ofNat 8 (24 / 256 ^ k))) ∧
    ∀ k, 30 ≤ k → k < 54 → (bmpHeader n w h)[k]? = some 0 := by
  refine ⟨fun k hk => ?_, fun k hlo hhi => ?_⟩
  · interval_cases k <;> exact ⟨rfl, rfl⟩
  · interval_cases k <;> rfl

/-- The whole file (41_bmp.md R261 to R263). -/
def bmpFile (x : Inputs) (n : Nat) : List Byte := bmpHeader n x.w x.h ++ (List.range x.h).flatMap x.bmpRow

/-- A byte of the header. -/
theorem bmpFile_header (x : Inputs) (n : Nat) {k : Nat} {b : Byte} (h : (bmpHeader n x.w x.h)[k]? = some b) :
    (bmpFile x n)[k]? = some b := by
  obtain ⟨hk, -⟩ := List.getElem?_eq_some_iff.mp h
  rw [bmpFile, List.getElem?_append_left hk, h]

/-- A byte of file row r. -/
theorem bmpFile_row (x : Inputs) (n : Nat) {r q : Nat} (hr : r < x.h) (hq : q < bmpStride x.w) :
    (bmpFile x n)[54 + (r * bmpStride x.w + q)]? = (x.bmpRow r)[q]? := by
  have hheader : (bmpHeader n x.w x.h).length = 54 := rfl
  rw [bmpFile, List.getElem?_append_right (by omega), hheader, Nat.add_sub_cancel_left,
    flatMap_getElem? _ _ (bmpRow_length x) _ hq, List.getElem?_range hr, Option.bind_some]

/-- BMP_ENCODE with its two checks passed (41_bmp.md R260). -/
theorem exec_bmpEncode_done {s : State} (hdst : ¬ s.inputs.dstOut s.cfg)
    (hcap : ¬ 54 + s.inputs.h * bmpStride s.inputs.w > s.inputs.dstCap) :
    exec .bmpEncode s = (s.emit s.inputs.dstAddr (54 + s.inputs.h * bmpStride s.inputs.w)
      (bmpFile s.inputs (54 + s.inputs.h * bmpStride s.inputs.w))).ok :=
  (if_neg hdst).trans (if_neg hcap)

/-! ### The decoded file -/

/-- A little-endian word from its four bytes (00_scope.md R10, 41_bmp.md R262). -/
theorem le32_of_bytes {x : Inputs} {p v : Nat} (hv : v < 2 ^ 32)
    (h : ∀ k, k < 4 → x.src (p + k) = BitVec.ofNat 8 (v / 256 ^ k)) : x.le32 p = v := by
  have h0 := h 0 (by decide)
  have h1 := h 1 (by decide)
  have h2 := h 2 (by decide)
  have h3 := h 3 (by decide)
  rw [Nat.add_zero] at h0
  simp only [Inputs.le32, Inputs.le16, Nat.add_assoc, Nat.reduceAdd, h0, h1, h2, h3, BitVec.toNat_ofNat]
  omega

section
variable {s : State}

/-- The first three checks of BMP_DECODE (41_bmp.md R252). -/
abbrev BmpMagicOk (s : State) : Prop :=
  (s.inputs.srcAddr + s.inputs.srcLen ≤ s.cfg.bmBytes ∧ 54 ≤ s.inputs.srcLen) ∧
    s.inputs.src 0 = 0x42 ∧ s.inputs.src 1 = 0x4D

/-- BMP_DECODE from its fourth check on. -/
theorem exec_bmpDecode_of_magic (h : BmpMagicOk s) :
    exec .bmpDecode s =
      let x := s.inputs
      let off := x.le32 10
      let w := x.le32s 18
      let h := x.le32s 22
      let need := off + h.natAbs * bmpStride w.toNat
      if off < 54 then s.fail (.bmpOffset off)
      else if w < 0 then s.fail (.bmpDim 0)
      else if h = -(2 ^ 31) then s.fail (.bmpDim 1)
      else if h.natAbs * w.toNat > s.cfg.pbCells then s.fail .capacity
      else if x.srcLen < need then s.fail (.bmpTrunc need)
      else ((s.buildImage h.natAbs w.toNat (BitVec.ofNat 32 off)
        (x.bmpPixels off h.natAbs w.toNat (decide (h < 0)))).setResults { s.res with topdown := decide (h < 0) }).ok := by
  obtain ⟨⟨hsrc, hlen⟩, hb, hm⟩ := h
  exact (if_neg (Nat.not_lt.mpr hsrc)).trans ((if_neg (Nat.not_lt.mpr hlen)).trans
    (if_neg (not_or.mpr ⟨not_not.mpr hb, not_not.mpr hm⟩)))

/-- BMP_DECODE with all its checks passed. -/
theorem exec_bmpDecode_done (h : BmpMagicOk s) (hoff : 54 ≤ s.inputs.le32 10) (hw : 0 ≤ s.inputs.le32s 18)
    (hh : s.inputs.le32s 22 ≠ -(2 ^ 31))
    (hcap : (s.inputs.le32s 22).natAbs * (s.inputs.le32s 18).toNat ≤ s.cfg.pbCells)
    (hlen : s.inputs.le32 10 + (s.inputs.le32s 22).natAbs * bmpStride (s.inputs.le32s 18).toNat ≤ s.inputs.srcLen) :
    exec .bmpDecode s =
      ((s.buildImage (s.inputs.le32s 22).natAbs (s.inputs.le32s 18).toNat (BitVec.ofNat 32 (s.inputs.le32 10))
        (s.inputs.bmpPixels (s.inputs.le32 10) (s.inputs.le32s 22).natAbs (s.inputs.le32s 18).toNat
          (decide (s.inputs.le32s 22 < 0)))).setResults
        { s.res with topdown := decide (s.inputs.le32s 22 < 0) }).ok :=
  (exec_bmpDecode_of_magic h).trans ((if_neg (Nat.not_lt.mpr hoff)).trans ((if_neg (Int.not_lt.mpr hw)).trans
    ((if_neg hh).trans ((if_neg (Nat.not_lt.mpr hcap)).trans (if_neg (Nat.not_lt.mpr hlen))))))

end

end Sys2Proof.Machine

/-! The obligations of 41_bmp.md. -/

namespace Sys2Proof.Machine

theorem toNat_ofNat_word {n : Nat} (h : n < 2 ^ 32) : (BitVec.ofNat 32 n).toNat = n := by
  rw [BitVec.toNat_ofNat, Nat.mod_eq_of_lt h]

/-- A signed word of the source window is below 2^31 (00_scope.md R10). -/
theorem le32s_lt (x : Inputs) (p : Nat) : x.le32s p < 2 ^ 31 := (BitVec.ofNat 32 (x.le32 p)).toInt_lt

/-- Settles O38: with every check passed BMP_DECODE builds the grid of the file's pixels. -/
theorem bmpDecodeReadsTheFile : Obligations.BmpDecodeReadsTheFile := by
  refine ⟨by decide, fun s w hn off stride topdown => ?_⟩
  intro x hsrc hb hm hoff hoff54 hw hh htop hn31 hcap hstride hneed
  have hw31 := le32s_lt x 18
  have hoff32 : off < 2 ^ 32 := hoff ▸ le32_lt x 10
  have hwn : (x.le32s 18).toNat = w := by omega
  have habs : (x.le32s 22).natAbs = hn := by rw [hh]; split <;> omega
  have hneg : decide (x.le32s 22 < 0) = topdown := by
    rw [hh]
    cases topdown with
    | false => exact decide_eq_false (by simp)
    | true => exact decide_eq_true (by simpa using htop rfl)
  have h54 : 54 ≤ x.srcLen := by omega
  have hpos : 0 ≤ x.le32s 18 := by omega
  have hmin : x.le32s 22 ≠ -(2 ^ 31) := by omega
  have hdone := exec_bmpDecode_done (s := s) ⟨⟨hsrc, h54⟩, hb, hm⟩ (hoff ▸ hoff54) hpos hmin
    (by rw [habs, hwn]; exact hcap) (by rw [habs, hwn, hoff, bmpStride, bmpPad, ← hstride]; exact hneed)
  rw [habs, hwn, hoff, hneg] at hdone
  refine ⟨_, hdone, commit_frame s _ s.bm s.ops _, rfl, rfl, rfl, toNat_ofNat_word (by omega),
    toNat_ofNat_word (by omega), toNat_ofNat_word hoff32, fun r c hr hc => ?_,
    fun i hi => build_grid_outside s _ _ hi⟩
  rw [hstride]
  exact build_grid_px s _ _ (by omega) hr hc

/-- Settles O39: the checks in their order. -/
theorem bmpDecodeFailsInOrder : Obligations.BmpDecodeFailsInOrder := by
  intro s x w h off need c1 c2 c3 c4 c5 c6 c7
  refine ⟨fun h1 => if_pos (Nat.lt_of_not_le h1), fun h1 h2 => ?_, fun h2 h3 => ?_, fun h3 h4 => ?_, fun h4 h5 => ?_,
    fun h5 h6 => ?_, fun h6 h7 => ?_, fun h7 hlen => ?_⟩
  · exact (if_neg (Nat.not_lt.mpr h1)).trans (if_pos (Nat.lt_of_not_le fun h => h2 ⟨h1, h⟩))
  · have hbad : x.src 0 ≠ 0x42 ∨ x.src 1 ≠ 0x4D := Classical.not_and_iff_not_or_not.mp fun h => h3 ⟨h2, h⟩
    exact (if_neg (Nat.not_lt.mpr h2.1)).trans ((if_neg (Nat.not_lt.mpr h2.2)).trans (if_pos hbad))
  · exact (exec_bmpDecode_of_magic h3).trans (if_pos (Nat.lt_of_not_le fun h => h4 ⟨h3, h⟩))
  · obtain ⟨h3, hoff⟩ := h4
    exact (exec_bmpDecode_of_magic h3).trans ((if_neg (Nat.not_lt.mpr hoff)).trans
      (if_pos (Int.lt_of_not_ge fun h => h5 ⟨⟨h3, hoff⟩, h⟩)))
  · obtain ⟨⟨h3, hoff⟩, hw⟩ := h5
    exact (exec_bmpDecode_of_magic h3).trans ((if_neg (Nat.not_lt.mpr hoff)).trans ((if_neg (Int.not_lt.mpr hw)).trans
      (if_pos (not_not.mp fun h => h6 ⟨⟨⟨h3, hoff⟩, hw⟩, h⟩))))
  · obtain ⟨⟨⟨h3, hoff⟩, hw⟩, hh⟩ := h6
    exact (exec_bmpDecode_of_magic h3).trans ((if_neg (Nat.not_lt.mpr hoff)).trans ((if_neg (Int.not_lt.mpr hw)).trans
      ((if_neg hh).trans (if_pos (Nat.lt_of_not_le fun h => h7 ⟨⟨⟨⟨h3, hoff⟩, hw⟩, hh⟩, h⟩)))))
  · obtain ⟨⟨⟨⟨h3, hoff⟩, hw⟩, hh⟩, hcap⟩ := h7
    exact (exec_bmpDecode_of_magic h3).trans ((if_neg (Nat.not_lt.mpr hoff)).trans ((if_neg (Int.not_lt.mpr hw)).trans
      ((if_neg hh).trans ((if_neg (Nat.not_lt.mpr hcap)).trans (if_pos hlen)))))

/-- Settles O40: the checks in their order, and the emitted file byte by byte. -/
theorem bmpEncodeWritesTheFile : Obligations.BmpEncodeWritesTheFile := by
  refine ⟨by decide, fun s => ?_⟩
  intro x stride n le
  refine ⟨fun hdst => if_pos hdst, fun hdst hcap => (if_neg (Nat.not_lt.mpr hdst)).trans (if_pos hcap),
    fun hdst hcap => ?_⟩
  refine ⟨_, exec_bmpEncode_done (Nat.not_lt.mpr hdst) (Nat.not_lt.mpr hcap), emit_frame s (bmpFile_length x n), rfl, rfl, ?_⟩
  intro o
  have hhead {k : Nat} {b : Byte} (h : (bmpHeader n x.w x.h)[k]? = some b) : o k = b :=
    emit_byte_of_getElem? s x.dstAddr n (bmpFile_header x n h)
  have hrow {r q : Nat} (hr : r < x.h) (hq : q < stride) {b : Byte} (h : (x.bmpRow r)[q]? = some b) :
      o (54 + r * stride + q) = b := by
    rw [Nat.add_assoc]
    exact emit_byte_of_getElem? s x.dstAddr n ((bmpFile_row x n hr hq).trans h)
  obtain ⟨hhalves, hzero⟩ := bmpHeader_halves n x.w x.h
  refine ⟨hhead rfl, hhead rfl, fun k hk => ?_, fun k hk => ?_, fun k hlo hhi => hhead (hzero k hlo hhi),
    fun r hr => ⟨fun c hc => ?_, fun q hlo hhi => hrow hr hhi (bmpRow_pad x r hlo hhi)⟩⟩
  · obtain ⟨h2, h6, h10, h14, h18, h22⟩ := bmpHeader_words n x.w x.h k hk
    exact ⟨hhead h2, hhead h6, hhead h10, hhead h14, hhead h18, hhead h22⟩
  · obtain ⟨h26, h28⟩ := hhalves k hk
    exact ⟨hhead h26, hhead h28⟩
  · have hpixel (k : Nat) (hk : k < 3) := bmpRow_pixel x r hc hk
    exact ⟨hrow hr (by omega) (hpixel 0 (by decide)), hrow hr (by omega) (hpixel 1 (by decide)),
      hrow hr (by omega) (hpixel 2 (by decide))⟩

end Sys2Proof.Machine

/-! SUPPORT. What a second command sees of the bytes that a first one has written, when the host points its source window
at them. -/

namespace Sys2Proof.Machine

section
variable {s : State} (h : s.engine = none)
include h

theorem inputs_h_of_idle : s.inputs.h = s.pb.h.toNat := by rw [Inputs.h, inputs_pb_of_idle h]

theorem inputs_w_of_idle : s.inputs.w = s.pb.w.toNat := by rw [Inputs.w, inputs_pb_of_idle h]

theorem inputs_px_of_idle (r c : Nat) : s.inputs.px r c = s.pb.cell (r * s.inputs.w + c) := by
  rw [Inputs.px, PixelBuffer.px, Inputs.w, inputs_pb_of_idle h]

theorem inputs_ops_of_idle : s.inputs.ops = s.ops := by rw [s.inputs_of_idle h, State.sample]

theorem inputs_bm_of_idle : s.inputs.bm = s.bm := by rw [s.inputs_of_idle h, State.sample]

end

/-- The source window of an idle `u` is the output of the command that took `s` to `t`. -/
structure ReadsOutput (n : Nat) (s t u : State) : Prop where
  idle    : u.engine = none
  srcAddr : u.inputs.srcAddr = s.inputs.dstAddr
  srcLen  : u.inputs.srcLen = n
  src     : ∀ k, u.inputs.src k = bmByte t.bm (s.inputs.dstAddr + k)

theorem readsOutput {n : Nat} {s t u : State} (hidle : s.engine = none) (frame : OutputFrame n s t)
    (hn : n ≤ s.inputs.dstCap) (hengine : u.engine = t.engine) (hbm : u.bm = t.bm)
    (haddr : u.ops.srcAddr = s.ops.dstAddr) (hlen : u.ops.srcLen = t.res.outLen) : ReadsOutput n s t u := by
  have hu : u.engine = none := hengine.trans (engine_eq_none frame.idle)
  have hcap : s.inputs.dstCap < 2 ^ 32 := s.inputs.ops.dstCap.isLt
  have hdst : u.inputs.srcAddr = s.inputs.dstAddr := by
    rw [Inputs.srcAddr, Inputs.dstAddr, inputs_ops_of_idle hu, inputs_ops_of_idle hidle, haddr]
  refine ⟨hu, hdst, ?_, fun k => ?_⟩
  · rw [Inputs.srcLen, inputs_ops_of_idle hu, hlen, frame.outLen, toNat_ofNat_word (hn.trans_lt hcap)]
  · rw [Inputs.src, hdst, inputs_bm_of_idle hu, hbm]

/-- Two frames with the same error class report the same STATUS.ERR. -/
theorem err_of_doneFrame {s t : State} (frame : DoneFrame s t) : t.status.err = s.status.err := by
  rw [Status.err, Status.err, frame.errClass]

theorem Pixel.mk_eq {p : Pixel} {r g b : Byte} (hr : r = p.r) (hg : g = p.g) (hb : b = p.b) : Pixel.mk r g b = p := by
  rw [hr, hg, hb]

end Sys2Proof.Machine

/-! The obligation of 41_bmp.md on the round trip. -/

namespace Sys2Proof.Machine

/-- Settles O41, from O38 and O40: the bytes that BMP_ENCODE wrote are a legal file of the same size and pixels. -/
theorem bmpEncodeThenDecodeIsTheIdentity : Obligations.BmpEncodeThenDecodeIsTheIdentity := by
  intro s t pb hs hc hidle hdst hcap ht
  obtain ⟨-, hencode⟩ := bmpEncodeWritesTheFile
  obtain ⟨-, -, hdone⟩ := hencode s
  obtain ⟨t', ht', frame, -, -, hb, hm, hwords, -, -, hrows⟩ := hdone hdst hcap
  obtain rfl : t' = t := Host.Outcome.next.inj (ht'.symm.trans ht)
  clear hdone hencode ht' ht
  generalize hu : withSource s.ops.dstAddr t'.res.outLen { t' with pb := pb } = u
  have hread : ReadsOutput (54 + s.inputs.h * bmpStride s.inputs.w) s t' u :=
    readsOutput hidle frame hcap (by rw [← hu]; rfl) (by rw [← hu]; rfl) (by rw [← hu]; rfl) (by rw [← hu]; rfl)
  simp only [← hread.src] at hb hm hwords hrows
  have hcfg : u.cfg = s.cfg := by rw [← hu]; exact frame.cfg
  have hh := inputs_h_of_idle hidle
  have hw := inputs_w_of_idle hidle
  have hdims := hs.dims
  have hword {p v : Nat} (hv : v < 2 ^ 31) (h : ∀ k, k < 4 → u.inputs.src (p + k) = BitVec.ofNat 8 (v / 256 ^ k)) :
      u.inputs.le32 p = v ∧ u.inputs.le32s p = v := by
    have hle := le32_of_bytes (by omega) h
    exact ⟨hle, by rw [le32s_of_lt (by omega), hle]⟩
  have hoffset : u.inputs.le32 10 = 54 := (hword (by decide) fun k hk => by
    obtain ⟨-, -, h, -⟩ := hwords k hk
    exact h).1
  have hwidth : u.inputs.le32s 18 = s.inputs.w := (hword (by have := hdims.w_le; omega) fun k hk => by
    obtain ⟨-, -, -, -, h, -⟩ := hwords k hk
    exact h).2
  have hheight : u.inputs.le32s 22 = s.inputs.h := (hword (by have := hdims.h_le; omega) fun k hk => by
    obtain ⟨-, -, -, -, -, h⟩ := hwords k hk
    exact h).2
  obtain ⟨-, hdecode⟩ := bmpDecodeReadsTheFile
  obtain ⟨v, hv, frame', -, -, hres, hvh, hvw, hvo, hpx, hpast⟩ := hdecode u s.inputs.w s.inputs.h 54
    (bmpStride s.inputs.w) false (by rw [hread.srcAddr, hread.srcLen, hcfg]; omega) hb hm hoffset
    (Nat.le_refl 54) hwidth hheight (fun h => absurd h (by decide)) (by have := hdims.h_le; omega) (by rw [hh, hw, hcfg]; exact hdims.count_le) rfl
    (by rw [hread.srcLen])
  refine ⟨v, hv, ?_, ?_, ?_, ?_, ?_, fun k hk => ?_, fun k hk => ?_⟩
  · rw [err_of_doneFrame frame', ← hu]
    rfl
  · exact BitVec.eq_of_toNat_eq (hvh.trans hh)
  · exact BitVec.eq_of_toNat_eq (hvw.trans hw)
  · exact BitVec.eq_of_toNat_eq hvo
  · rw [hres]
  · rw [← hh, ← hw] at hk
    obtain ⟨r, c, hr, hc, rfl⟩ := exists_row_col hk
    have hcell := hpx r c hr hc
    rw [PixelBuffer.px, hvw] at hcell
    obtain ⟨hblue, hgreen, hred⟩ := (hrows r hr).1 c hc
    rw [hcell, ← inputs_px_of_idle hidle]
    exact Pixel.mk_eq hred hgreen hblue
  · rw [hpast k (by rwa [hh, hw]), ← hu]
    rfl

end Sys2Proof.Machine

/-! SUPPORT. A7_SPLIT and A7_MERGE once their checks have passed (45_adam7.md R460, R462). -/

namespace Sys2Proof.Machine

/-- The operand registers after A7_SPLIT of an image: the fourteen A7 registers hold its reduced dimensions. -/
def splitOperands (x : Inputs) (ops : Operands) : Operands :=
  { ops with
    a7ph := Vector.ofFn fun q : Fin 7 => BitVec.ofNat 32 (passH (q.val + 1) x.h)
    a7pw := Vector.ofFn fun q : Fin 7 => BitVec.ofNat 32 (passW (q.val + 1) x.w) }

theorem splitOperands_a7 (x : Inputs) (ops : Operands) (q : Fin 7) :
    (splitOperands x ops).a7ph.get q = BitVec.ofNat 32 (passH (q.val + 1) x.h) ∧
      (splitOperands x ops).a7pw.get q = BitVec.ofNat 32 (passW (q.val + 1) x.w) := by
  simp [splitOperands, Vector.get_eq_getElem]

/-- A7_SPLIT with its two checks passed (45_adam7.md R460). -/
theorem exec_a7Split_done {s : State} (hdst : ¬ s.inputs.dstOut s.cfg)
    (hcap : ¬ 3 * s.inputs.h * s.inputs.w > s.inputs.dstCap) :
    exec .a7Split s = ((s.emit s.inputs.dstAddr (3 * s.inputs.h * s.inputs.w) s.inputs.a7Stream).setOps
      (splitOperands s.inputs s.ops)).ok :=
  (if_neg hdst).trans (if_neg hcap)

/-- Emitting `n` bytes, and writing operand registers besides. -/
theorem emit_setOps_frame (s : State) {n : Nat} {out : List Byte} (ops : Operands) (hn : out.length = n) :
    OutputFrame n s ((s.emit s.inputs.dstAddr n out).setOps ops).finish :=
  { commit_frame s s.pb (s.bm.write s.inputs.dstAddr out) ops (s.emit s.inputs.dstAddr n out).res with
    pb := rfl, outLen := rfl, topdown := rfl, crcOut := rfl, outside := (emit_frame s hn).outside }

/-- The A7 registers of passes 1..n all hold the reduced dimensions (45_adam7.md R462). -/
theorem badPass_eq_none_iff (x : Inputs) (h w n : Nat) :
    x.badPass h w n = none ↔ ∀ p, 1 ≤ p → p ≤ n → x.a7ph p = passH p h ∧ x.a7pw p = passW p w := by
  simp only [Inputs.badPass, List.find?_eq_none, List.mem_map, List.mem_range, decide_eq_true_eq, not_or, not_not]
  constructor
  · intro hall p h1 hn
    exact hall p ⟨p - 1, by omega, by omega⟩
  · rintro hall p ⟨q, hq, rfl⟩
    exact hall (q + 1) (by omega) (by omega)

/-- The first pass of 1..n whose A7 registers are wrong (45_adam7.md R462). -/
theorem badPass_eq_some {x : Inputs} {h w n p : Nat} (h1 : 1 ≤ p) (hn : p ≤ n)
    (hbad : ¬ (x.a7ph p = passH p h ∧ x.a7pw p = passW p w))
    (hfirst : ∀ q, 1 ≤ q → q < p → x.a7ph q = passH q h ∧ x.a7pw q = passW q w) : x.badPass h w n = some p := by
  obtain ⟨q, rfl⟩ := Nat.exists_eq_add_of_le' h1
  rw [Inputs.badPass, List.find?_map, Option.map_eq_some_iff]
  refine ⟨q, List.find?_range_eq_some.mpr ⟨?_, List.mem_range.mpr hn, fun j hj => ?_⟩, rfl⟩
  · exact decide_eq_true (not_and_or.mp hbad)
  · have hok := hfirst (j + 1) (by omega) (by omega)
    simpa using hok

/-- A7_MERGE from its fourth check on (45_adam7.md R462). -/
theorem exec_a7Merge_in {s : State} {n : Nat} (hsrc : ¬ s.inputs.srcOut s.cfg) (hn : ¬ (n < 1 ∨ n > 7))
    (hcap : ¬ overCapacity s.cfg s.inputs.dimH s.inputs.dimW) :
    exec (.a7Merge n) s =
      match s.inputs.badPass s.inputs.dimH s.inputs.dimW n with
      | some p => s.fail (.a7Dim p)
      | none =>
        if s.inputs.srcLen < passBytes s.inputs.dimH s.inputs.dimW n then
          s.fail (.a7Trunc (passBytes s.inputs.dimH s.inputs.dimW n))
        else (s.buildImage s.inputs.dimH s.inputs.dimW 54 (gridOf s.inputs.dimH s.inputs.dimW fun r c =>
          s.inputs.mergePixel s.inputs.dimH s.inputs.dimW n r c)).ok :=
  (if_neg hsrc).trans ((if_neg hn).trans ((if_neg hcap).trans rfl))

/-- The pixel of a merge at point (u, v) of pass p (45_adam7.md R462, R463). -/
theorem mergePixel_point (x : Inputs) (h w n : Nat) {p : Nat} (h1 : 1 ≤ p) (h7 : p ≤ 7) (u v : Nat) :
    x.mergePixel h w n ((passSteps p).rs + u * (passSteps p).dr) ((passSteps p).cs + v * (passSteps p).dc) =
      if p ≤ n then x.srcRgb (passOffset h w p + 3 * (u * passW p w + v)) else ⟨0, 0, 0⟩ := by
  obtain ⟨⟨hr, -⟩, hc, -⟩ := passSteps_facts h1 h7
  simp only [Inputs.mergePixel, passOf_point h1 h7, Nat.add_sub_cancel_left,
    Nat.mul_div_cancel _ (Nat.zero_lt_of_lt hr), Nat.mul_div_cancel _ (Nat.zero_lt_of_lt hc)]

theorem ofNat_toNat_word (v : Word) : BitVec.ofNat 32 v.toNat = v := (BitVec.ofNat_toNat 32 v).trans (BitVec.setWidth_eq v)

/-- Every pixel of an image is a point of the pass that the lookup table names. -/
theorem exists_point {h w r c : Nat} (hr : r < h) (hc : c < w) :
    ∃ u v, u < passH (passOf r c) h ∧ v < passW (passOf r c) w ∧
      r = (passSteps (passOf r c)).rs + u * (passSteps (passOf r c)).dr ∧
      c = (passSteps (passOf r c)).cs + v * (passSteps (passOf r c)).dc := by
  obtain ⟨h1, h7⟩ := passOf_range r c
  obtain ⟨u, v, hu, hv⟩ := (point_iff_passOf h1 h7 r c).mpr rfl
  exact ⟨u, v, (lt_passH_iff h1 h7 h u).mpr (hu ▸ hr), (lt_passW_iff h1 h7 w v).mpr (hv ▸ hc), hu, hv⟩

/-- The A7 registers of an idle block, by pass number. -/
theorem a7_of_idle {s : State} (hs : s.engine = none) (q : Fin 7) :
    s.inputs.a7ph (q.val + 1) = (s.ops.a7ph.get q).toNat ∧ s.inputs.a7pw (q.val + 1) = (s.ops.a7pw.get q).toNat := by
  simp [Inputs.a7ph, Inputs.a7pw, inputs_ops_of_idle hs, Vector.get_eq_getElem, List.getD_eq_getElem?_getD]

theorem passBytes_le (h w : Nat) {n : Nat} (hn : n ≤ 7) : passBytes h w n ≤ 3 * h * w := by
  have hmono : ∀ k, passBytes h w n ≤ passBytes h w (n + k) := fun k => by
    induction k with
    | zero => exact Nat.le_refl _
    | succ k ih => exact ih.trans ((Nat.le_add_right _ _).trans_eq (passOffset_succ h w (p := n + k + 1) (by omega)).symm)
  have h7 := hmono (7 - n)
  rwa [Nat.add_sub_cancel' hn, passBytes, passBytes, passes_sum, ← passBytes, ← Nat.mul_assoc] at h7

/-- The number of a command's word is the one that decodes to it (30_encoding.md R148). -/
theorem encode_toNat_of_decode {n : Nat} {i : Instr} (hn : n < 2 ^ 32) (h : decode (BitVec.ofNat 32 n) = .ok i) :
    (encode i).toNat = n := by
  rw [(legalWordsEncodeBack _ i h).2, toNat_ofNat_word hn]

end Sys2Proof.Machine

/-! The obligations of 45_adam7.md on the two commands. -/

namespace Sys2Proof.Machine

/-- Settles O58: the checks in their order, and the emitted stream pass by pass. -/
theorem splitWritesTheSubImages : Obligations.SplitWritesTheSubImages := by
  refine ⟨by decide, fun s => ?_⟩
  intro x n
  refine ⟨fun hdst => if_pos hdst, fun hdst hcap => (if_neg (Nat.not_lt.mpr hdst)).trans (if_pos hcap),
    fun hdst hcap => ?_⟩
  refine ⟨_, exec_a7Split_done (Nat.not_lt.mpr hdst) (Nat.not_lt.mpr hcap),
    emit_setOps_frame s (splitOperands x s.ops) (a7Stream_length x), rfl, rfl, splitOperands_a7 x s.ops,
    fun p u v h1 h7 hu hv => ?_⟩
  have hbyte (k : Nat) (hk : k < 3) := a7Stream_getElem? x h1 h7 hu hv hk
  intro px k
  have hk : k = x.dstAddr + (passOffset x.h x.w p + 3 * (u * passW p x.w + v)) := Nat.add_assoc ..
  rw [hk]
  exact ⟨emit_byte_of_getElem? s x.dstAddr n (hbyte 0 (by decide)),
    emit_byte_of_getElem? s x.dstAddr n (hbyte 1 (by decide)),
    emit_byte_of_getElem? s x.dstAddr n (hbyte 2 (by decide))⟩

/-- Settles O59: the checks in their order, and the built grid point by point. -/
theorem mergeBuildsFromThePasses : Obligations.MergeBuildsFromThePasses := by
  refine ⟨fun n hn => encode_toNat_of_decode (by omega) (decode_a7Merge hn), fun n s => ?_⟩
  intro x fits dimOk need c1 c2 c3 c4
  have hin {n : Nat} (h : 1 ≤ n ∧ n ≤ 7) : ¬ (n < 1 ∨ n > 7) := by omega
  refine ⟨fun h1 => if_pos (Nat.lt_of_not_le h1), fun h1 h2 => ?_, fun h2 h3 => ?_, fun h3 p hp1 hpn hbad hfirst => ?_,
    fun h4 hlen => ?_, fun h4 hlen => ?_⟩
  · have hout : n < 1 ∨ n > 7 := Classical.not_not.mp fun h => h2 ⟨h1, by omega, by omega⟩
    exact (if_neg (Nat.not_lt.mpr h1)).trans (if_pos hout)
  · have hover : overCapacity s.cfg x.dimH x.dimW := Decidable.not_not.mp fun h => h3 (not_overCapacity_iff.mp h)
    exact (if_neg (Nat.not_lt.mpr h2.1)).trans ((if_neg (hin h2.2)).trans (if_pos hover))
  · obtain ⟨⟨h1, hn⟩, hfits⟩ := h3
    rw [exec_a7Merge_in (Nat.not_lt.mpr h1) (hin hn) (not_overCapacity_iff.mpr hfits),
      badPass_eq_some hp1 hpn hbad hfirst]
    rfl
  · obtain ⟨⟨⟨h1, hn⟩, hfits⟩, hok⟩ := h4
    rw [exec_a7Merge_in (Nat.not_lt.mpr h1) (hin hn) (not_overCapacity_iff.mpr hfits),
      (badPass_eq_none_iff x _ _ n).mpr hok]
    exact if_pos hlen
  · obtain ⟨⟨⟨h1, hn⟩, hfits⟩, hok⟩ := h4
    rw [exec_a7Merge_in (Nat.not_lt.mpr h1) (hin hn) (not_overCapacity_iff.mpr hfits),
      (badPass_eq_none_iff x _ _ n).mpr hok]
    refine ⟨_, if_neg (Nat.not_lt.mpr hlen), buildImage_frame .., ofNat_toNat_word _, ofNat_toNat_word _, rfl,
      fun p u v hp1 hp7 hu hv => ?_, fun k hk => build_grid_outside s 54 _ hk⟩
    have hpx := build_grid_px s 54 (fun r c => x.mergePixel x.dimH x.dimW n r c) x.ops.dimW.isLt
      ((lt_passH_iff hp1 hp7 _ u).mp hu) ((lt_passW_iff hp1 hp7 _ v).mp hv)
    exact hpx.trans (mergePixel_point x x.dimH x.dimW n hp1 hp7 u v)

/-- Settles O60, from O58 and O59: each pixel is a point of its pass, whose bytes the split wrote and the merge reads. -/
theorem splitThenMergeKeepsThePasses : Obligations.SplitThenMergeKeepsThePasses := by
  intro s t n pb h1 h7 hs hidle hdst hcap ht
  obtain ⟨-, hsplit⟩ := splitWritesTheSubImages
  obtain ⟨-, -, hdone⟩ := hsplit s
  obtain ⟨t', ht', frame, -, -, ha7, hbytes⟩ := hdone hdst hcap
  obtain rfl : t' = t := Host.Outcome.next.inj (ht'.symm.trans ht)
  clear hdone hsplit ht' ht
  generalize hu : withSourceAndDims s.ops.dstAddr t'.res.outLen s.pb.h s.pb.w { t' with pb := pb } = u
  have hread : ReadsOutput (3 * s.inputs.h * s.inputs.w) s t' u := readsOutput hidle frame hcap (by rw [← hu]; rfl)
    (by rw [← hu]; rfl) (by rw [← hu]; rfl) (by rw [← hu]; rfl)
  have hcfg : u.cfg = s.cfg := by rw [← hu]; exact frame.cfg
  have hh := inputs_h_of_idle hidle
  have hw := inputs_w_of_idle hidle
  have hdimH : u.inputs.dimH = s.inputs.h := by rw [hh, Inputs.dimH, inputs_ops_of_idle hread.idle, ← hu]; rfl
  have hdimW : u.inputs.dimW = s.inputs.w := by rw [hw, Inputs.dimW, inputs_ops_of_idle hread.idle, ← hu]; rfl
  have hdims := hs.dims
  obtain ⟨-, hmerge⟩ := mergeBuildsFromThePasses
  obtain ⟨-, -, -, -, -, hdone⟩ := hmerge n u
  rw [hdimH, hdimW] at hdone
  have hregs : ∀ p, 1 ≤ p → p ≤ n → u.inputs.a7ph p = passH p s.inputs.h ∧ u.inputs.a7pw p = passW p s.inputs.w := by
    intro p hp1 hpn
    obtain ⟨q, rfl⟩ := Nat.exists_eq_add_of_le' hp1
    have hleH := passH_le hp1 (hpn.trans h7) s.inputs.h
    have hleW := passW_le hp1 (hpn.trans h7) s.inputs.w
    have hhLe : s.inputs.h ≤ 2 ^ 31 - 1 := by rw [hh]; exact hdims.h_le
    have hwLe : s.inputs.w ≤ 2 ^ 31 - 1 := by rw [hw]; exact hdims.w_le
    obtain ⟨huh, huw⟩ := a7_of_idle hread.idle ⟨q, by omega⟩
    obtain ⟨hph, hpw⟩ := ha7 ⟨q, by omega⟩
    have hops : u.ops.a7ph = t'.ops.a7ph ∧ u.ops.a7pw = t'.ops.a7pw := by rw [← hu]; exact ⟨rfl, rfl⟩
    rw [hops.1, hph, toNat_ofNat_word ((hleH.trans hhLe).trans_lt (by decide))] at huh
    rw [hops.2, hpw, toNat_ofNat_word ((hleW.trans hwLe).trans_lt (by decide))] at huw
    exact ⟨huh, huw⟩
  obtain ⟨v, hv, frame', hvh, hvw, -, hpx, hpast⟩ := hdone
    ⟨⟨⟨by rw [hread.srcAddr, hread.srcLen, hcfg]; omega, h1, h7⟩, by rw [hh]; exact hdims.h_le, by rw [hw]; exact hdims.w_le,
      by rw [hh, hw, hcfg]; exact hdims.count_le⟩, hregs⟩ (by rw [hread.srcLen]; exact passBytes_le _ _ h7)
  refine ⟨v, hv, ?_, ?_, ?_, fun r c hr hc => ?_, fun k hk => ?_⟩
  · rw [err_of_doneFrame frame'.toDoneFrame, ← hu]
    rfl
  · rw [hvh, inputs_ops_of_idle hread.idle, ← hu]
    rfl
  · rw [hvw, inputs_ops_of_idle hread.idle, ← hu]
    rfl
  · rw [← hh] at hr
    rw [← hw] at hc
    have hold : s.inputs.px r c = s.pb.px r c := by rw [Inputs.px, inputs_pb_of_idle hidle]
    obtain ⟨hp1, hp7⟩ := passOf_range r c
    obtain ⟨y, z, hy, hz, hry, hcz⟩ := exists_point hr hc
    obtain ⟨hred, hgreen, hblue⟩ := hbytes _ y z hp1 hp7 hy hz
    have hcell := hpx _ y z hp1 hp7 hy hz
    rw [← hry, ← hcz] at hcell hred hgreen hblue
    simp only [Nat.add_assoc, ← hread.src] at hred hgreen hblue
    rw [hcell, ← hold]
    exact if_congr Iff.rfl (Pixel.mk_eq hred hgreen hblue) rfl
  · rw [hpast k (by rwa [hh, hw]), ← hu]
    rfl

end Sys2Proof.Machine

/-! SUPPORT. The scanline filter and its inverse, byte by byte (44_scanline.md R400 to R411). -/

namespace Sys2Proof.Machine

/-! ### Predictions -/

/-- A prediction from bytes is a byte value (44_scanline.md R402). -/
theorem predict_toNat (t : Nat) (a b c : Byte) : (predict t a b c).toNat = predictor t a.toNat b.toNat c.toNat := by
  have h := predictor_le t (Nat.le_of_lt_succ a.isLt) (Nat.le_of_lt_succ b.isLt) (Nat.le_of_lt_succ c.isLt)
  rw [predict, BitVec.toNat_ofNat, Nat.mod_eq_of_lt (by omega)]

/-- The prediction at (i, j) of the bytes `raw`, with missing neighbours 0 (44_scanline.md R401, R402). -/
def predictAt (raw : Nat → Nat → Byte) (t i j : Nat) : Byte :=
  predict t (if 3 ≤ j then raw i (j - 3) else 0) (if 1 ≤ i then raw (i - 1) j else 0)
    (if 1 ≤ i ∧ 3 ≤ j then raw (i - 1) (j - 3) else 0)

theorem predictAt_toNat (px : Nat → Nat → Pixel) (t i j : Nat) :
    (predictAt (rawOf px) t i j).toNat = predOf px t i j := by
  rw [predictAt, predict_toNat, predOf, apply_ite BitVec.toNat, apply_ite BitVec.toNat, apply_ite BitVec.toNat]
  rfl

/-- The prediction depends on the three neighbours only. -/
theorem predictAt_congr {raw raw' : Nat → Nat → Byte} (t : Nat) {i j : Nat}
    (hleft : 3 ≤ j → raw i (j - 3) = raw' i (j - 3)) (habove : 1 ≤ i → raw (i - 1) j = raw' (i - 1) j)
    (hcorner : 1 ≤ i → 3 ≤ j → raw (i - 1) (j - 3) = raw' (i - 1) (j - 3)) :
    predictAt raw t i j = predictAt raw' t i j := by
  have ha : (if 3 ≤ j then raw i (j - 3) else 0) = if 3 ≤ j then raw' i (j - 3) else 0 := by
    split
    · next h => exact hleft h
    · rfl
  have hb : (if 1 ≤ i then raw (i - 1) j else 0) = if 1 ≤ i then raw' (i - 1) j else 0 := by
    split
    · next h => exact habove h
    · rfl
  have hc : (if 1 ≤ i ∧ 3 ≤ j then raw (i - 1) (j - 3) else 0) =
      if 1 ≤ i ∧ 3 ≤ j then raw' (i - 1) (j - 3) else 0 := by
    split
    · next h => exact hcorner h.1 h.2
    · rfl
  rw [predictAt, predictAt, ha, hb, hc]

/-- The filtered byte is the raw byte minus its prediction (44_scanline.md R404). -/
theorem filtered_eq (x : Inputs) (t i j : Nat) : x.filtered t i j = x.raw i j - predictAt x.raw t i j := rfl

/-! ### Filtered scanlines -/

theorem scanline_length (x : Inputs) (t i : Nat) : (x.scanline t i).length = 1 + 3 * x.w := by
  simp [Inputs.scanline, Nat.add_comm]

/-- Byte k of scanline i in the output of SL_FILTER (44_scanline.md R410). -/
theorem scanlines_getElem? (x : Inputs) (t : Nat) {i k : Nat} (hi : i < x.h) (hk : k < 1 + 3 * x.w) :
    ((List.range x.h).flatMap fun i => x.scanline t i)[i * (1 + 3 * x.w) + k]? = (x.scanline t i)[k]? := by
  rw [flatMap_getElem? _ _ (scanline_length x t) _ hk, List.getElem?_range hi, Option.bind_some]

/-- SL_FILTER with its three checks passed (44_scanline.md R410). -/
theorem exec_slFilter_done {s : State} {t : Nat} (hdst : ¬ s.inputs.dstOut s.cfg) (ht : ¬ t > 4)
    (hcap : ¬ s.inputs.h * (1 + 3 * s.inputs.w) > s.inputs.dstCap) :
    exec (.slFilter t) s = (s.emit s.inputs.dstAddr (s.inputs.h * (1 + 3 * s.inputs.w))
      ((List.range s.inputs.h).flatMap fun i => s.inputs.scanline t i)).ok :=
  (if_neg hdst).trans ((if_neg ht).trans (if_neg hcap))

/-! ### Reconstructed scanlines -/

/-- The bytes already reconstructed stay in front. -/
theorem defilterRow_prefix (t : Nat) (prev filtered done : List Byte) {k : Nat} (hk : k < done.length) :
    (defilterRow t prev filtered done)[k]? = done.reverse[k]? := by
  induction filtered generalizing done with
  | nil => rfl
  | cons f rest ih =>
    rw [defilterRow, ih _ (by rw [List.length_cons]; omega), List.reverse_cons,
      List.getElem?_append_left (by rwa [List.length_reverse])]

/-- Every further byte is its filtered byte plus the prediction from the reconstructed neighbours (44_scanline.md R411). -/
theorem defilterRow_getElem? (t : Nat) (prev filtered done : List Byte) {j : Nat} {f : Byte} (hf : filtered[j]? = some f) :
    (defilterRow t prev filtered done)[done.length + j]? = some (f + predict t
      (if 3 ≤ done.length + j then (defilterRow t prev filtered done).getD (done.length + j - 3) 0 else 0)
      (prev.getD (done.length + j) 0)
      (if 3 ≤ done.length + j then prev.getD (done.length + j - 3) 0 else 0)) := by
  induction filtered generalizing done j with
  | nil => cases hf
  | cons g rest ih =>
    cases j with
    | zero =>
      obtain rfl : g = f := Option.some.inj hf
      have hleft : done.getD 2 0 =
          if 3 ≤ done.length then (defilterRow t prev (g :: rest) done).getD (done.length - 3) 0 else 0 := by
        split
        · next h =>
          rw [List.getD_eq_getElem?_getD, List.getD_eq_getElem?_getD, defilterRow_prefix _ _ _ _ (by omega),
            List.getElem?_reverse (by omega), show done.length - 1 - (done.length - 3) = 2 by omega]
        · rw [List.getD_eq_getElem?_getD, List.getElem?_eq_none (by omega), Option.getD_none]
      rw [Nat.add_zero, ← hleft, defilterRow, defilterRow_prefix _ _ _ _ (by rw [List.length_cons]; omega)]
      simp
    | succ j =>
      have := ih (done := (g + predict t (done.getD 2 0) (prev.getD done.length 0)
        (if 3 ≤ done.length then prev.getD (done.length - 3) 0 else 0)) :: done) (j := j) hf
      rw [List.length_cons, show done.length + 1 + j = done.length + (j + 1) by omega] at this
      rw [defilterRow]
      exact this

/-- The row above scanline i: empty above row 0, else scanline i - 1 reconstructed (44_scanline.md R411). -/
def Inputs.rowAbove (x : Inputs) (w : Nat) : Nat → List Byte
  | 0 => []
  | i + 1 => defilterRow (x.src (i * (1 + 3 * w))).toNat (x.rowAbove w i)
      (x.srcBytes (i * (1 + 3 * w) + 1) (3 * w)) []

theorem rowAbove_length (x : Inputs) (w i : Nat) : (x.rowAbove w (i + 1)).length = 3 * w := by
  simp [Inputs.rowAbove, defilterRow_length, Inputs.srcBytes]

theorem defilterRows_eq (x : Inputs) (w n i : Nat) :
    x.defilterRows w n i (x.rowAbove w i) = (List.range n).flatMap fun k => x.rowAbove w (i + k + 1) := by
  induction n generalizing i with
  | zero => rfl
  | succ n ih =>
    rw [List.range_succ_eq_map, List.flatMap_cons, List.flatMap_map]
    have hrest := ih (i + 1)
    simp only [Nat.add_right_comm i 1] at hrest
    exact congrArg (x.rowAbove w (i + 1) ++ ·) hrest

/-- Byte j of reconstructed scanline i. -/
def Inputs.recon (x : Inputs) (w i j : Nat) : Byte := (x.rowAbove w (i + 1)).getD j 0

/-- The reconstruction of R411: each byte is its filtered byte plus the prediction from the reconstructed neighbours. -/
theorem recon_eq (x : Inputs) {w i j : Nat} (hj : j < 3 * w) :
    x.recon w i j = x.src (i * (1 + 3 * w) + 1 + j) +
      predictAt (x.recon w) (x.src (i * (1 + 3 * w))).toNat i j := by
  have hf : (x.srcBytes (i * (1 + 3 * w) + 1) (3 * w))[j]? = some (x.src (i * (1 + 3 * w) + 1 + j)) := by
    simp [Inputs.srcBytes, hj]
  have hrow := defilterRow_getElem? (x.src (i * (1 + 3 * w))).toNat (x.rowAbove w i) _ [] hf
  rw [List.length_nil, Nat.zero_add] at hrow
  have habove (k : Nat) : (x.rowAbove w i).getD k 0 = if 1 ≤ i then x.recon w (i - 1) k else 0 := by
    cases i <;> rfl
  have hcorner : (if 3 ≤ j then (x.rowAbove w i).getD (j - 3) 0 else 0) =
      if 1 ≤ i ∧ 3 ≤ j then x.recon w (i - 1) (j - 3) else 0 := by
    rw [habove, ← ite_and, if_congr and_comm rfl rfl]
  rw [hcorner, habove] at hrow
  rw [Inputs.recon, List.getD_eq_getElem?_getD, Inputs.rowAbove, hrow, Option.getD_some]
  rfl

/-! ### Pixels of a byte stream -/

theorem pixelsOf_getElem? : ∀ (l : List Byte) (k : Nat), 3 * k + 2 < l.length →
    (pixelsOf l)[k]? = some ⟨l.getD (3 * k) 0, l.getD (3 * k + 1) 0, l.getD (3 * k + 2) 0⟩
  | [], _, h | [_], _, h | [_, _], _, h => by simp at h
  | _ :: _ :: _ :: _, 0, _ => rfl
  | _ :: _ :: _ :: rest, k + 1, h => pixelsOf_getElem? rest k (by simp only [List.length_cons] at h; omega)

/-- The pixels that SL_DEFILTER stores, byte by byte. -/
theorem defilteredPixels_getElem? (x : Inputs) {h w r c : Nat} (hr : r < h) (hc : c < w) :
    (pixelsOf (x.defilterRows w h 0 []))[r * w + c]? =
      some ⟨x.recon w r (3 * c), x.recon w r (3 * c + 1), x.recon w r (3 * c + 2)⟩ := by
  have hindex := index_lt hr hc
  have hlen : 3 * (r * w + c) + 2 < (x.defilterRows w h 0 []).length := by
    rw [defilterRows_length, Nat.mul_left_comm]
    omega
  have hbyte {q : Nat} (hq : q < 3 * w) : (x.defilterRows w h 0 []).getD (r * (3 * w) + q) 0 = x.recon w r q := by
    rw [List.getD_eq_getElem?_getD, show ([] : List Byte) = x.rowAbove w 0 from rfl, defilterRows_eq]
    simp only [Nat.zero_add]
    rw [flatMap_getElem? _ _ (rowAbove_length x w) _ hq, List.getElem?_range hr, Option.bind_some, Inputs.recon,
      List.getD_eq_getElem?_getD]
  have hcell (k : Nat) : 3 * (r * w + c) + k = r * (3 * w) + (3 * c + k) := by ring
  rw [pixelsOf_getElem? _ _ hlen, hcell 1, hcell 2, ← Nat.add_zero (3 * (r * w + c)), hcell 0, hbyte (by omega),
    hbyte (by omega), hbyte (by omega), Nat.add_zero]

/-- The image that SL_DEFILTER builds, as a grid. -/
theorem defilteredPixels_eq_gridOf (x : Inputs) (h w : Nat) :
    pixelsOf (x.defilterRows w h 0 []) =
      gridOf h w fun r c => ⟨x.recon w r (3 * c), x.recon w r (3 * c + 1), x.recon w r (3 * c + 2)⟩ := by
  have hlen : (pixelsOf (x.defilterRows w h 0 [])).length = h * w := by
    rw [pixelsOf_length, defilterRows_length, Nat.mul_left_comm, Nat.mul_div_cancel_left _ (by decide)]
  refine List.ext_getElem? fun k => ?_
  by_cases hk : k < h * w
  · obtain ⟨r, c, hr, hc, rfl⟩ := exists_row_col hk
    rw [defilteredPixels_getElem? x hr hc, gridOf_at _ hr hc]
  · rw [List.getElem?_eq_none (by omega), List.getElem?_eq_none (by rw [gridOf_length]; omega)]

/-- Byte j of row i in an image whose pixels are made of the bytes `b`. -/
theorem rawOf_eq {px : Nat → Nat → Pixel} {b : Nat → Nat → Byte} {i j : Nat}
    (h : px i (j / 3) = ⟨b i (3 * (j / 3)), b i (3 * (j / 3) + 1), b i (3 * (j / 3) + 2)⟩) : rawOf px i j = b i j := by
  have hj := Nat.div_add_mod j 3
  rw [rawOf, h]
  have hmod := Nat.mod_lt j (show 0 < 3 by decide)
  generalize j % 3 = k at hj hmod
  interval_cases k <;> exact congrArg (b i) hj

/-- A pixel is its three bytes of the scanline (44_scanline.md R400). -/
theorem ch_eq_rawOf (px : Nat → Nat → Pixel) (r c : Nat) {ch : Nat} (h : ch < 3) :
    (px r c).ch ch = rawOf px r (3 * c + ch) := by
  rw [rawOf, show (3 * c + ch) / 3 = c by omega, show (3 * c + ch) % 3 = ch by omega]

/-- The first scanline whose type byte exceeds 4 (44_scanline.md R411). -/
theorem badScanline_eq_some {x : Inputs} {h w i : Nat} (hi : i < h) (hbad : (x.src (i * (1 + 3 * w))).toNat > 4)
    (hfirst : ∀ k, k < i → (x.src (k * (1 + 3 * w))).toNat ≤ 4) : x.badScanline h w = some i := by
  refine List.find?_range_eq_some.mpr ⟨decide_eq_true hbad, List.mem_range.mpr hi, fun k hk => ?_⟩
  simpa using hfirst k hk

theorem badScanline_eq_none {x : Inputs} {h w : Nat} (hall : ∀ i, i < h → (x.src (i * (1 + 3 * w))).toNat ≤ 4) :
    x.badScanline h w = none := by
  refine List.find?_eq_none.mpr fun i hi => ?_
  simpa using hall i (List.mem_range.mp hi)

/-- SL_DEFILTER from its fourth check on (44_scanline.md R411). -/
theorem exec_slDefilter_in {s : State} (hsrc : ¬ s.inputs.srcOut s.cfg)
    (hcap : ¬ overCapacity s.cfg s.inputs.dimH s.inputs.dimW)
    (hlen : ¬ s.inputs.srcLen < s.inputs.dimH * (1 + 3 * s.inputs.dimW)) :
    exec .slDefilter s =
      match s.inputs.badScanline s.inputs.dimH s.inputs.dimW with
      | some i => s.fail (.filterType i)
      | none => (s.buildImage s.inputs.dimH s.inputs.dimW 54
          (pixelsOf (s.inputs.defilterRows s.inputs.dimW s.inputs.dimH 0 []))).ok :=
  (if_neg hsrc).trans ((if_neg hcap).trans ((if_neg hlen).trans rfl))

/-- Two images with the same bytes are the same: the prediction of each byte comes from bytes before it, so a byte that was
filtered and reconstructed is the old one (44_scanline.md R412 (f)). -/
theorem rawOf_eq_of_filtered {old new : Nat → Nat → Pixel} {t h w : Nat}
    (hnew : ∀ i j, i < h → j < 3 * w → (rawOf new i j).toNat =
      (((((rawOf old i j).toNat : Int) - predOf old t i j) % 256).toNat + predOf new t i j) % 256)
    (i j : Nat) (hi : i < h) (hj : j < 3 * w) : rawOf new i j = rawOf old i j := by
  induction i using Nat.strong_induction_on generalizing j with
  | _ i ihrow =>
    induction j using Nat.strong_induction_on with
    | _ j ihcol =>
      have hpred : predOf new t i j = predOf old t i j := by
        rw [← predictAt_toNat, ← predictAt_toNat]
        exact congrArg _ (predictAt_congr t (fun _ => ihcol _ (by omega) (by omega))
          (fun _ => ihrow _ (by omega) _ (by omega) hj) fun _ _ => ihrow _ (by omega) _ (by omega) (by omega))
      have hbyte := hnew i j hi hj
      have hlt := (rawOf old i j).isLt
      rw [hpred] at hbyte
      exact BitVec.eq_of_toNat_eq (by omega)

end Sys2Proof.Machine

/-! The obligations of 44_scanline.md on the two commands. -/

namespace Sys2Proof.Machine

/-- Settles O54: the checks in their order, and the emitted scanlines byte by byte. -/
theorem filterWritesEveryScanline : Obligations.FilterWritesEveryScanline := by
  refine ⟨fun t ht => encode_toNat_of_decode (by omega) (decode_slFilter ht), fun t s => ?_⟩
  intro x n
  refine ⟨fun hdst => if_pos hdst, fun hdst ht => (if_neg (Nat.not_lt.mpr hdst)).trans (if_pos ht),
    fun hdst ht hcap => (if_neg (Nat.not_lt.mpr hdst)).trans ((if_neg (Nat.not_lt.mpr ht)).trans (if_pos hcap)),
    fun hdst ht hcap => ?_⟩
  refine ⟨_, exec_slFilter_done (Nat.not_lt.mpr hdst) (Nat.not_lt.mpr ht) (Nat.not_lt.mpr hcap),
    emit_frame s (scanlines_length x t), rfl, rfl, fun i hi => ?_⟩
  have hbyte {k : Nat} {b : Byte} (hk : k < 1 + 3 * x.w) (h : (x.scanline t i)[k]? = some b) :=
    emit_byte_of_getElem? s x.dstAddr n ((scanlines_getElem? x t hi hk).trans h)
  refine ⟨?_, fun j hj => ?_⟩
  · have htype := hbyte (k := 0) (by omega) rfl
    rw [Nat.add_zero] at htype
    refine (congrArg BitVec.toNat htype).trans ?_
    rw [BitVec.toNat_ofNat, Nat.mod_eq_of_lt (by omega)]
  · have hout := hbyte (k := 1 + j) (b := x.filtered t i j) (by omega)
      (by rw [Nat.add_comm 1 j]; simp [Inputs.scanline, hj])
    have haddr : x.dstAddr + i * (1 + 3 * x.w) + 1 + j = x.dstAddr + (i * (1 + 3 * x.w) + (1 + j)) := by omega
    rw [haddr]
    refine (congrArg (fun b : Byte => (b.toNat : Int)) hout).trans ?_
    rw [filtered_eq, BitVec.toNat_sub, show predictAt x.raw t i j = predictAt (rawOf x.px) t i j from rfl]
    have hpred := (predictAt (rawOf x.px) t i j).isLt
    rw [predictAt_toNat] at hpred ⊢
    change (((2 ^ 8 - predOf x.px t i j + (rawOf x.px i j).toNat) % 2 ^ 8 : Nat) : Int) = _
    omega

/-- Settles O55: the checks in their order, and the built image byte by byte. -/
theorem defilterReconstructsEveryScanline : Obligations.DefilterReconstructsEveryScanline := by
  refine ⟨by decide, fun s => ?_⟩
  intro x need fits ty c1
  have hin (h1 : c1) (hfits : fits) (hlen : need ≤ x.srcLen) := exec_slDefilter_in (s := s) (Nat.not_lt.mpr h1)
    (not_overCapacity_iff.mpr hfits) (Nat.not_lt.mpr hlen)
  refine ⟨fun h1 => if_pos (Nat.lt_of_not_le h1), fun h1 h2 => ?_, fun h1 h2 hlen => ?_,
    fun h1 h2 hlen i hi hbad hfirst => ?_, fun h1 h2 hlen hall => ?_⟩
  · have hover : overCapacity s.cfg x.dimH x.dimW := Decidable.not_not.mp fun h => h2 (not_overCapacity_iff.mp h)
    exact (if_neg (Nat.not_lt.mpr h1)).trans (if_pos hover)
  · exact (if_neg (Nat.not_lt.mpr h1)).trans ((if_neg (not_overCapacity_iff.mpr h2)).trans (if_pos hlen))
  · rw [hin h1 h2 hlen, badScanline_eq_some hi hbad hfirst]
    rfl
  · rw [hin h1 h2 hlen, badScanline_eq_none hall]
    rw [defilteredPixels_eq_gridOf]
    have hraw {i j : Nat} (hi : i < x.dimH) (hj : j < 3 * x.dimW) :=
      rawOf_eq (b := x.recon x.dimW) (i := i) (j := j) (build_grid_px s 54 (fun r c =>
        ⟨x.recon x.dimW r (3 * c), x.recon x.dimW r (3 * c + 1), x.recon x.dimW r (3 * c + 2)⟩) x.ops.dimW.isLt hi
        (show j / 3 < x.dimW by omega))
    refine ⟨_, rfl, buildImage_frame .., ofNat_toNat_word _, ofNat_toNat_word _, rfl, fun i j hi hj => ?_,
      fun k hk => build_grid_outside s 54 _ hk⟩
    have hpred := predictAt_congr (ty i) (raw := rawOf (s.buildImage x.dimH x.dimW 54 _).pb.px) (fun _ => hraw hi (by omega))
      (fun _ => hraw (by omega) hj) fun _ _ => hraw (by omega) (by omega)
    rw [← predictAt_toNat]
    refine (congrArg BitVec.toNat (hraw hi hj)).trans ?_
    rw [recon_eq x hj, BitVec.toNat_add, ← hpred]
    rfl

end Sys2Proof.Machine

/-! The obligation of 44_scanline.md on the round trip. -/

namespace Sys2Proof.Machine

/-- Settles O56, from O54 and O55: the two predictions agree byte by byte, so the reconstructed bytes are the old ones. -/
theorem filterThenDefilterIsTheIdentity : Obligations.FilterThenDefilterIsTheIdentity := by
  intro s t f pb hf hs hidle hdst hcap ht
  obtain ⟨-, hfilter⟩ := filterWritesEveryScanline
  obtain ⟨-, -, -, hdone⟩ := hfilter f s
  obtain ⟨t', ht', frame, -, -, hbytes⟩ := hdone hdst hf hcap
  obtain rfl : t' = t := Host.Outcome.next.inj (ht'.symm.trans ht)
  clear hdone hfilter ht' ht
  generalize hu : withSourceAndDims s.ops.dstAddr t'.res.outLen s.pb.h s.pb.w { t' with pb := pb } = u
  have hread : ReadsOutput (s.inputs.h * (1 + 3 * s.inputs.w)) s t' u := readsOutput hidle frame hcap
    (by rw [← hu]; rfl) (by rw [← hu]; rfl) (by rw [← hu]; rfl) (by rw [← hu]; rfl)
  have hcfg : u.cfg = s.cfg := by rw [← hu]; exact frame.cfg
  have hh := inputs_h_of_idle hidle
  have hw := inputs_w_of_idle hidle
  have hdimH : u.inputs.dimH = s.inputs.h := by rw [hh, Inputs.dimH, inputs_ops_of_idle hread.idle, ← hu]; rfl
  have hdimW : u.inputs.dimW = s.inputs.w := by rw [hw, Inputs.dimW, inputs_ops_of_idle hread.idle, ← hu]; rfl
  have hdims := hs.dims
  simp only [Nat.add_assoc, ← hread.src] at hbytes
  obtain ⟨-, hdefilter⟩ := defilterReconstructsEveryScanline
  obtain ⟨-, -, -, -, hdone⟩ := hdefilter u
  rw [hdimH, hdimW] at hdone
  obtain ⟨v, hv, frame', hvh, hvw, -, hraw, hpast⟩ := hdone (by rw [hread.srcAddr, hread.srcLen, hcfg]; omega)
    ⟨by rw [hh]; exact hdims.h_le, by rw [hw]; exact hdims.w_le, by rw [hh, hw, hcfg]; exact hdims.count_le⟩
    hread.srcLen.ge fun i hi => (hbytes i hi).1.trans_le hf
  have hraws := rawOf_eq_of_filtered (old := s.inputs.px) (new := v.pb.px) (t := f) (h := s.inputs.h)
    (w := s.inputs.w) fun i j hi hj => by
      obtain ⟨htype, hfiltered⟩ := hbytes i hi
      rw [hraw i j hi hj, ← hfiltered j hj, Int.toNat_natCast, Nat.add_assoc]
      simp only [htype]
  have hvw' : v.pb.w = s.pb.w := by rw [hvw, inputs_ops_of_idle hread.idle, ← hu]; rfl
  refine ⟨v, hv, ?_, ?_, hvw', fun k hk => ?_, fun k hk => ?_⟩
  · rw [err_of_doneFrame frame'.toDoneFrame, ← hu]
    rfl
  · rw [hvh, inputs_ops_of_idle hread.idle, ← hu]
    rfl
  · rw [← hh, ← hw] at hk
    obtain ⟨r, c, hr, hc, rfl⟩ := exists_row_col hk
    rw [← inputs_px_of_idle hidle]
    have hpx : v.pb.px r c = s.inputs.px r c := Pixel.ext_ch fun ch hch => by
      rw [ch_eq_rawOf _ _ _ hch, ch_eq_rawOf _ _ _ hch, hraws r _ hr (by omega)]
    rwa [PixelBuffer.px, hvw', ← hw] at hpx
  · rw [hpast k (by rwa [hh, hw]), ← hu]
    rfl

end Sys2Proof.Machine

/-! SUPPORT. The CRC step as an injective map of the register: a table step of 43_png_chunk.md R355 is eight bit steps of R356
on the register with the byte added, and each bit step can be undone. -/

namespace Sys2Proof.Machine

/-- What a bit step adds to the shifted register: the polynomial when bit 0 was set (43_png_chunk.md R356). -/
def crcFeedback (bit : Bool) : Word := if bit then 0xEDB88320 else 0

theorem crcStep_eq (c : Word) : crcStep c = crcFeedback (c.getLsbD 0) ^^^ (c >>> 1) := by
  unfold crcStep crcFeedback
  split
  · rfl
  · exact BitVec.zero_xor.symm

/-- The bit step is linear over xor. -/
theorem crcStep_xor (a b : Word) : crcStep (a ^^^ b) = crcStep a ^^^ crcStep b := by
  have hfeedback : crcFeedback ((a ^^^ b).getLsbD 0) = crcFeedback (a.getLsbD 0) ^^^ crcFeedback (b.getLsbD 0) := by
    rw [BitVec.getLsbD_xor]
    cases a.getLsbD 0 <;> cases b.getLsbD 0 <;> rfl
  rw [crcStep_eq, crcStep_eq, crcStep_eq, hfeedback, BitVec.ushiftRight_xor_distrib]
  ac_rfl

theorem crcSteps_xor (n : Nat) (a b : Word) : crcSteps n (a ^^^ b) = crcSteps n a ^^^ crcSteps n b := by
  induction n generalizing a b with
  | zero => rfl
  | succ n ih => rw [crcSteps, crcStep_xor, ih, crcSteps, crcSteps]

/-- The polynomial has bit 31, which a shifted register has not: so bit 31 tells which branch was taken. -/
theorem crcStep_getLsbD_31 (c : Word) : (crcStep c).getLsbD 31 = c.getLsbD 0 := by
  unfold crcStep
  cases h : c.getLsbD 0 <;> simp

theorem crcStep_injective {c d : Word} (h : crcStep c = crcStep d) : c = d := by
  have h0 : c.getLsbD 0 = d.getLsbD 0 := by rw [← crcStep_getLsbD_31, h, crcStep_getLsbD_31]
  have hshift : c >>> 1 = d >>> 1 := by
    unfold crcStep at h
    rw [h0] at h
    split at h
    · exact (BitVec.xor_right_inj _).mp h
    · exact h
  refine BitVec.eq_of_getLsbD_eq fun i _ => ?_
  cases i with
  | zero => exact h0
  | succ i =>
    have hbit := congrArg (·.getLsbD i) hshift
    simpa [BitVec.getLsbD_ushiftRight, Nat.add_comm 1] using hbit

theorem crcSteps_injective (n : Nat) {c d : Word} (h : crcSteps n c = crcSteps n d) : c = d := by
  induction n generalizing c d with
  | zero => exact h
  | succ n ih => exact crcStep_injective (ih h)

/-- Steps on a register whose low bits are 0 only shift it. -/
theorem crcSteps_of_low_zero (n : Nat) {c : Word} (h : ∀ i, i < n → c.getLsbD i = false) : crcSteps n c = c >>> n := by
  induction n generalizing c with
  | zero => simp [crcSteps]
  | succ n ih =>
    have hstep : crcStep c = c >>> 1 := by
      unfold crcStep
      rw [h 0 (by omega)]
      rfl
    rw [crcSteps, hstep, ih fun i hi => by rw [BitVec.getLsbD_ushiftRight]; exact h _ (by omega),
      ← BitVec.shiftRight_add, Nat.add_comm]

/-- A register is its low byte and the rest of it. -/
theorem low_byte_xor_rest (c : Word) : (c.setWidth 8).zeroExtend 32 ^^^ (c >>> 8 <<< 8) = c := by
  ext i hi
  simp only [BitVec.getElem_xor, BitVec.truncate_eq_setWidth, BitVec.getElem_setWidth, BitVec.getLsbD_setWidth,
    BitVec.getElem_shiftLeft, BitVec.getElem_ushiftRight]
  by_cases h : i < 8
  · simp [h, BitVec.getLsbD_eq_getElem hi]
  · simp [h, Nat.add_sub_cancel' (Nat.le_of_not_lt h), BitVec.getLsbD_eq_getElem hi]

/-- A table step is eight bit steps on the register with the byte added (43_png_chunk.md R355, R356). -/
theorem crcByte_eq_crcSteps (c : Word) (b : Byte) : crcByte c b = crcSteps 8 (c ^^^ b.zeroExtend 32) := by
  have hbyte : b.zeroExtend 32 >>> 8 = (0 : Word) := by
    have hb := b.isLt
    refine BitVec.eq_of_toNat_eq ?_
    simp only [BitVec.truncate_eq_setWidth, BitVec.toNat_ushiftRight, BitVec.toNat_setWidth, Nat.shiftRight_eq_div_pow]
    rw [show (0 : Word).toNat = 0 from rfl]
    omega
  have hrest : (c ^^^ b.zeroExtend 32) >>> 8 = c >>> 8 := by
    rw [BitVec.ushiftRight_xor_distrib, hbyte]
    exact BitVec.xor_zero
  have hback : c >>> 8 <<< 8 >>> 8 = c >>> 8 := by
    have hc := c.isLt
    refine BitVec.eq_of_toNat_eq ?_
    simp only [BitVec.toNat_ushiftRight, BitVec.toNat_shiftLeft, Nat.shiftRight_eq_div_pow, Nat.shiftLeft_eq]
    omega
  conv_rhs => rw [← low_byte_xor_rest (c ^^^ b.zeroExtend 32), crcSteps_xor, hrest,
    crcSteps_of_low_zero 8 (c := c >>> 8 <<< 8) fun i hi => by simp [hi], hback]
  rfl

/-- The register after any bytes determines the register before them. -/
theorem foldl_crcByte_injective (bytes : List Byte) {c d : Word} (h : bytes.foldl crcByte c = bytes.foldl crcByte d) :
    c = d := by
  induction bytes generalizing c d with
  | nil => exact h
  | cons b bytes ih =>
    have hbyte := ih h
    rw [crcByte_eq_crcSteps, crcByte_eq_crcSteps] at hbyte
    exact (BitVec.xor_left_inj _).mp (crcSteps_injective 8 hbyte)

theorem crcByte_injective (c : Word) {b b' : Byte} (h : crcByte c b = crcByte c b') : b = b' := by
  rw [crcByte_eq_crcSteps, crcByte_eq_crcSteps] at h
  have hzext := (BitVec.xor_right_inj _).mp (crcSteps_injective 8 h)
  simpa using congrArg (BitVec.setWidth 8) hzext

end Sys2Proof.Machine

/-! The obligation of 43_png_chunk.md on a changed byte. -/

namespace Sys2Proof.Machine

/-- Settles O49: the changed byte gives another register, and the bytes after it keep two registers apart. -/
theorem crcDetectsAChangedByte : Obligations.CrcDetectsAChangedByte := by
  intro before after b b' hne h
  have hreg := (BitVec.xor_left_inj _).mp h
  rw [List.foldl_append, List.foldl_append, List.foldl_cons, List.foldl_cons] at hreg
  exact hne (crcByte_injective _ (foldl_crcByte_injective after hreg))

end Sys2Proof.Machine

/-! SUPPORT. Byte sequences in the source window: what the window holds at an offset, and the big-endian words in it
(00_scope.md R10, R12). -/

namespace Sys2Proof.Machine

/-- The source window holds the bytes `bs` from offset `pos` on. -/
def Inputs.Holds (x : Inputs) (pos : Nat) (bs : List Byte) : Prop := x.srcBytes pos bs.length = bs

@[simp] theorem srcBytes_length (x : Inputs) (pos n : Nat) : (x.srcBytes pos n).length = n := by simp [Inputs.srcBytes]

theorem srcBytes_getElem? (x : Inputs) (pos : Nat) {n k : Nat} (hk : k < n) :
    (x.srcBytes pos n)[k]? = some (x.src (pos + k)) := by simp [Inputs.srcBytes, hk]

/-- A window read is a list exactly when each of its bytes is. -/
theorem srcBytes_eq_iff {x : Inputs} {pos n : Nat} {bs : List Byte} (hn : bs.length = n) :
    x.srcBytes pos n = bs ↔ ∀ k, k < n → x.src (pos + k) = bs.getD k 0 := by
  constructor
  · rintro rfl k hk
    rw [List.getD_eq_getElem?_getD, srcBytes_getElem? x pos hk, Option.getD_some]
  · intro h
    refine List.ext_getElem? fun k => ?_
    by_cases hk : k < n
    · rw [srcBytes_getElem? x pos hk, h k hk, List.getD_eq_getElem _ _ (by omega), List.getElem?_eq_getElem]
    · rw [List.getElem?_eq_none (by rw [srcBytes_length]; omega), List.getElem?_eq_none (by omega)]

theorem srcBytes_add (x : Inputs) (pos m n : Nat) :
    x.srcBytes pos (m + n) = x.srcBytes pos m ++ x.srcBytes (pos + m) n := by
  simp [Inputs.srcBytes, List.range_add, Nat.add_assoc]

theorem holds_append {x : Inputs} {pos : Nat} {as bs : List Byte} :
    x.Holds pos (as ++ bs) ↔ x.Holds pos as ∧ x.Holds (pos + as.length) bs := by
  rw [Inputs.Holds, List.length_append, srcBytes_add]
  exact ⟨fun h => List.append_inj h (srcBytes_length ..), fun ⟨ha, hb⟩ => congrArg₂ _ ha hb⟩

/-- The stream at the start of the window. -/
theorem sourceStarts_iff {x : Inputs} {stream : List Byte} :
    sourceStarts x stream ↔ stream.length ≤ x.srcLen ∧ x.Holds 0 stream := by
  rw [sourceStarts, Inputs.Holds, srcBytes_eq_iff rfl]
  simp only [Nat.zero_add]

@[simp] theorem beBytes_length (v : Nat) : (beBytes v).length = 4 := rfl

/-- A big-endian word of the window (00_scope.md R10). -/
theorem be32_of_holds {x : Inputs} {pos v : Nat} (h : x.Holds pos (beBytes v)) (hv : v < 2 ^ 32) : x.be32 pos = v := by
  have hbyte := (srcBytes_eq_iff (beBytes_length v)).mp h
  have h0 := hbyte 0 (by decide)
  have h1 := hbyte 1 (by decide)
  have h2 := hbyte 2 (by decide)
  have h3 := hbyte 3 (by decide)
  rw [Nat.add_zero] at h0
  rw [Inputs.be32, h0, h1, h2, h3]
  simp only [beBytes, List.map_cons, List.map_nil, List.getD_cons_zero, List.getD_cons_succ, BitVec.toNat_ofNat]
  omega

/-- Four bytes as a word, the first most significant. -/
theorem ofNat_bytes (b₀ b₁ b₂ b₃ : Byte) :
    BitVec.ofNat 32 (2 ^ 24 * b₀.toNat + 2 ^ 16 * b₁.toNat + 2 ^ 8 * b₂.toNat + b₃.toNat) = b₀ ++ b₁ ++ b₂ ++ b₃ := by
  have hlanes := laneWord_append fun | 0 => b₃ | 1 => b₂ | 2 => b₁ | _ => b₀
  simp only [laneWord] at hlanes
  exact (congrArg (BitVec.ofNat 32) (by omega)).trans hlanes

theorem ofNat_be32 (x : Inputs) (pos : Nat) :
    BitVec.ofNat 32 (x.be32 pos) = x.src pos ++ x.src (pos + 1) ++ x.src (pos + 2) ++ x.src (pos + 3) :=
  ofNat_bytes _ _ _ _

end Sys2Proof.Machine

/-! SUPPORT. The chunk loop of PNG_PARSE, one lemma per kind of chunk (43_png_chunk.md R360 to R362). -/

namespace Sys2Proof.Machine

/-- The checks of a chunk in the terms of the rules (43_png_chunk.md R352, R357). -/
theorem chunkTyped_iff (x : Inputs) (pos : Nat) : (x.srcBytes (pos + 4) 4).all isLetter = true ↔ chunkTyped x pos := by
  simp [Inputs.srcBytes, isLetter, chunkTyped]

theorem chunkCrcMatches_iff (x : Inputs) (pos : Nat) :
    BitVec.ofNat 32 (x.be32 (pos + 8 + x.be32 pos)) = crc32Of (x.srcBytes (pos + 4) (4 + x.be32 pos)) ↔
      chunkCrcMatches x pos := by
  rw [ofNat_be32]
  rfl

section
variable {x : Inputs} {pos : Nat}

/-- The checks of a chunk in their order (43_png_chunk.md R361). -/
theorem chunkError_eq (x : Inputs) (pos : Nat) : x.chunkError pos =
    if x.srcLen < pos + 8 then some (.pngTrunc (pos + 8))
    else if ¬ chunkTyped x pos then some (.pngType (pos + 4))
    else if x.srcLen < pos + 12 + chunkLength x pos then some (.pngTrunc (pos + 12 + chunkLength x pos))
    else if ¬ chunkCrcMatches x pos then some (.pngCrc pos)
    else none := by
  simp only [Inputs.chunkError, ← chunkTyped_iff, ← chunkCrcMatches_iff, ne_eq, Bool.not_eq_true', Bool.not_eq_true]
  rfl

theorem chunkError_eq_none (hlen : pos + 12 + chunkLength x pos ≤ x.srcLen) (hty : chunkTyped x pos)
    (hcrc : chunkCrcMatches x pos) : x.chunkError pos = none := by
  rw [chunkError_eq, if_neg (by omega), if_neg (not_not.mpr hty), if_neg (by omega), if_neg (not_not.mpr hcrc)]

/-- A chunk whose checks fail ends the loop. -/
theorem pngLoop_of_error {e : CmdError} (h : x.chunkError pos = some e) (fuel : Nat) (hdr : Option Ihdr)
    (idat : List Byte) : x.pngLoop (fuel + 1) pos hdr idat = .error e := by
  rw [pngLoop_succ, h]

end

theorem chunk_bytes_length {c : Chunk} (h : c.ty.length = 4) : c.bytes.length = 12 + c.data.length := by
  simp [Chunk.bytes, Chunk.bytesWith, h]
  omega

/-- What the window holds where a chunk with its right CRC stands, and that its checks pass. -/
theorem chunk_of_holds {x : Inputs} {pos : Nat} {c : Chunk} (hty : c.ty.length = 4) (hlen : c.data.length < 2 ^ 32)
    (h : x.Holds pos c.bytes) :
    x.be32 pos = c.data.length ∧ x.srcBytes (pos + 4) 4 = c.ty ∧ x.srcBytes (pos + 8) c.data.length = c.data ∧
      ((∀ b ∈ c.ty, isLetter b = true) → pos + c.bytes.length ≤ x.srcLen → x.chunkError pos = none) := by
  have hend := chunk_bytes_length hty
  rw [Chunk.bytes, Chunk.bytesWith, holds_append, holds_append, holds_append] at h
  simp only [List.length_append, beBytes_length, hty, Nat.reduceAdd] at h
  obtain ⟨⟨⟨hlength, htype⟩, hdata⟩, hcrc⟩ := h
  rw [Inputs.Holds, hty] at htype
  have hbe := be32_of_holds hlength hlen
  have hall : x.srcBytes (pos + 4) (4 + c.data.length) = c.ty ++ c.data := by
    rw [srcBytes_add, htype, Nat.add_assoc, hdata]
  refine ⟨hbe, htype, hdata, fun hletters hin => ?_⟩
  have hlen' : chunkLength x pos = c.data.length := hbe
  refine chunkError_eq_none (by omega) ((chunkTyped_iff x pos).mp ?_) ((chunkCrcMatches_iff x pos).mp ?_)
  · rw [htype]
    exact List.all_eq_true.mpr hletters
  · rw [hbe, hall, Nat.add_assoc, be32_of_holds hcrc c.crc.isLt]
    exact ofNat_toNat_word _

/-- Where a legal chunk stands, the loop goes on behind it, with the chunk's data gathered when it is IDAT (43_png_chunk.md
R360, R362). -/
theorem pngLoop_inner {x : Inputs} {pos : Nat} {c : Chunk} (hc : c.inner) (h : x.Holds pos c.bytes)
    (hin : pos + c.bytes.length ≤ x.srcLen) (fuel : Nat) (header : Ihdr) (idat : List Byte) :
    x.pngLoop (fuel + 1) pos (some header) idat = x.pngLoop fuel (pos + c.bytes.length) (some header)
      (idat ++ if c.ty == typeIdat then c.data else []) := by
  obtain ⟨hty, hletters, hend, hlen⟩ := hc
  obtain ⟨hbe, htype, hdata, hok⟩ := chunk_of_holds hty hlen h
  rw [pngLoop_succ, hok hletters hin, htype, hbe, hdata, chunk_bytes_length hty, ← Nat.add_assoc]
  by_cases hidat : c.ty = typeIdat
  · simp [hidat]
  · simp [hidat, hend]

/-- The data of the IDAT chunks, concatenated (43_png_chunk.md R363). -/
def idatData (chunks : List Chunk) : List Byte := (chunks.filter fun c => c.ty == typeIdat).flatMap Chunk.data

/-- The loop over a list of legal chunks. -/
theorem pngLoop_chunks {x : Inputs} {pos : Nat} {chunks : List Chunk} (hc : ∀ c ∈ chunks, c.inner)
    (h : x.Holds pos (chunks.flatMap Chunk.bytes)) (hin : pos + (chunks.flatMap Chunk.bytes).length ≤ x.srcLen)
    (fuel : Nat) (header : Ihdr) (idat : List Byte) :
    x.pngLoop (fuel + chunks.length) pos (some header) idat =
      x.pngLoop fuel (pos + (chunks.flatMap Chunk.bytes).length) (some header) (idat ++ idatData chunks) := by
  induction chunks generalizing pos idat with
  | nil => simp [idatData]
  | cons c chunks ih =>
    rw [List.flatMap_cons, holds_append] at h
    rw [List.flatMap_cons, List.length_append] at hin ⊢
    rw [List.length_cons, ← Nat.add_assoc, pngLoop_inner (hc c (by simp)) h.1 (by omega),
      ih (fun c hmem => hc c (by simp [hmem])) h.2 (by omega), Nat.add_assoc, List.append_assoc]
    congr 2
    by_cases hidat : c.ty = typeIdat <;> simp [idatData, hidat]

/-- IEND ends the loop, whatever follows it (43_png_chunk.md R360). -/
theorem pngLoop_iend {x : Inputs} {pos : Nat} {data : List Byte} (hlen : data.length < 2 ^ 32)
    (h : x.Holds pos (Chunk.mk typeIend data).bytes) (hin : pos + (Chunk.mk typeIend data).bytes.length ≤ x.srcLen)
    (fuel : Nat) (header : Ihdr) (idat : List Byte) : x.pngLoop (fuel + 1) pos (some header) idat = .ok (header, idat) := by
  obtain ⟨-, htype, -, hok⟩ := chunk_of_holds rfl hlen h
  rw [pngLoop_succ, hok (show ∀ b ∈ typeIend, isLetter b = true by decide) hin, htype]
  rfl

theorem ihdrChunk_length (w h : Word) : (ihdrChunk w h).data.length = 13 := rfl

/-- An accepted IHDR as the first chunk (43_png_chunk.md R353, R354, R360). -/
theorem pngLoop_ihdr {x : Inputs} {w h : Word} (hh : x.Holds 8 (ihdrChunk w h).bytes) (hin : 33 ≤ x.srcLen) (fuel : Nat) :
    x.pngLoop (fuel + 1) 8 none [] = x.pngLoop fuel 33 (some ⟨w, h, 0x608, 0⟩) [] := by
  obtain ⟨hbe, htype, hdata, hok⟩ := chunk_of_holds rfl (ihdrChunk_length w h ▸ by decide) hh
  have hfields : x.Holds 16 (beBytes w.toNat ++ beBytes h.toNat ++ [8, 6, 0, 0, 0]) := hdata
  rw [holds_append, holds_append] at hfields
  obtain ⟨⟨hw, hh⟩, hfixed⟩ := hfields
  have hbytes := (srcBytes_eq_iff rfl).mp hfixed
  have h24 : x.src 24 = 8 := hbytes 0 (by decide)
  have h25 : x.src 25 = 6 := hbytes 1 (by decide)
  have h26 : x.src 26 = 0 := hbytes 2 (by decide)
  have h27 : x.src 27 = 0 := hbytes 3 (by decide)
  have h28 : x.src 28 = 0 := hbytes 4 (by decide)
  have hreject : x.ihdrReject = none := by simp [Inputs.ihdrReject, ihdrRules, h24, h25, h26, h27, h28]
  have hwidth : x.be32 16 = w.toNat := be32_of_holds hw w.isLt
  have hheight : x.be32 20 = h.toNat := be32_of_holds hh h.isLt
  have hheader : x.ihdr = ⟨w, h, 0x608, 0⟩ := by
    simp [Inputs.ihdr, Inputs.le32, Inputs.le16, hwidth, hheight, h24, h25, h26, h27, h28]
  have hty : x.srcBytes (8 + 4) 4 = typeIhdr := htype
  have hlen : x.be32 8 = 13 := hbe
  rw [pngLoop_succ, hok (show ∀ b ∈ typeIhdr, isLetter b = true by decide) hin, hreject, hheader, hty, hlen]
  rfl

/-- The chunk loop starts behind a signature that is right (43_png_chunk.md R350, R360). -/
theorem pngStream_of_signature {x : Inputs} (hin : 8 ≤ x.srcLen) (h : x.Holds 0 pngSignature) :
    x.pngStream = x.pngLoop (x.srcLen - 1 + 1) 8 none [] := by
  have hsig : x.srcBytes 0 8 = pngSignature := h
  rw [Inputs.pngStream, if_neg (by omega), if_neg (not_not.mpr hsig), Nat.sub_add_cancel (by omega)]

theorem length_le_chunks_bytes {chunks : List Chunk} (hc : ∀ c ∈ chunks, c.inner) :
    chunks.length ≤ (chunks.flatMap Chunk.bytes).length := by
  induction chunks with
  | nil => simp
  | cons c chunks ih =>
    obtain ⟨hty, -⟩ := hc c (by simp)
    have hbytes := chunk_bytes_length hty
    have := ih fun c hmem => hc c (by simp [hmem])
    rw [List.flatMap_cons, List.length_append, List.length_cons]
    omega

/-- The chunk loop behind an accepted IHDR and further legal chunks, with fuel left. -/
theorem pngStream_of_chunks {x : Inputs} {w h : Word} {chunks : List Chunk} (hc : ∀ c ∈ chunks, c.inner)
    (hstarts : sourceStarts x (pngBefore (some (w, h, chunks)))) :
    ∃ fuel, x.pngStream = x.pngLoop (fuel + 1) (pngBefore (some (w, h, chunks))).length (some ⟨w, h, 0x608, 0⟩)
      (idatData chunks) := by
  obtain ⟨hin, hholds⟩ := sourceStarts_iff.mp hstarts
  have hlen : (pngBefore (some (w, h, chunks))).length = 33 + (chunks.flatMap Chunk.bytes).length :=
    List.length_append
  have hcount := length_le_chunks_bytes hc
  rw [pngBefore, holds_append, holds_append] at hholds
  obtain ⟨⟨hsig, hihdr⟩, hchunks⟩ := hholds
  have hchunks : x.Holds 33 (chunks.flatMap Chunk.bytes) := hchunks
  obtain ⟨fuel, hfuel⟩ := Nat.exists_eq_add_of_le (show chunks.length + 2 ≤ x.srcLen by omega)
  refine ⟨fuel, ?_⟩
  rw [pngStream_of_signature (by omega) hsig, pngLoop_ihdr hihdr (by omega), hlen,
    show x.srcLen - 1 = fuel + 1 + chunks.length by omega, pngLoop_chunks hc hchunks (by omega), List.nil_append]

/-- The chunk loop stands at the chunk that the bytes `pngBefore` are followed by. -/
theorem pngStream_of_before {x : Inputs} {before : Option (Word × Word × List Chunk)}
    (hc : ∀ w h chunks, before = some (w, h, chunks) → ∀ c ∈ chunks, c.inner) (hstarts : sourceStarts x (pngBefore before)) :
    ∃ fuel hdr idat, x.pngStream = x.pngLoop (fuel + 1) (pngBefore before).length hdr idat := by
  match before with
  | none =>
    obtain ⟨hin, hholds⟩ := sourceStarts_iff.mp hstarts
    exact ⟨_, none, [], pngStream_of_signature hin hholds⟩
  | some (w, h, chunks) =>
    obtain ⟨fuel, hfuel⟩ := pngStream_of_chunks (hc w h chunks rfl) hstarts
    exact ⟨fuel, _, _, hfuel⟩

/-- The first chunk once its own checks pass, and the loop behind it (43_png_chunk.md R354, R360). -/
def Inputs.firstChunk (x : Inputs) : Except CmdError (Ihdr × List Byte) :=
  if x.srcBytes 12 4 ≠ typeIhdr ∨ x.be32 8 ≠ 13 then .error .pngNoIhdr
  else match x.ihdrReject with
    | some offset => .error (.pngIhdrParam offset)
    | none => x.pngLoop (x.srcLen - 1) (20 + x.be32 8) (some x.ihdr) []

theorem pngStream_of_first {x : Inputs} (hin : 8 ≤ x.srcLen) (h : x.Holds 0 pngSignature) (hok : x.chunkError 8 = none) :
    x.pngStream = x.firstChunk := by
  rw [pngStream_of_signature hin h, pngLoop_succ, hok]
  rfl

/-- The first IHDR field that R354 rejects, the fields counted from the bit depth at offset 24. -/
theorem ihdrReject_eq_some {x : Inputs} {j : Nat} (hj : j < 5) (hbad : ¬ x.src (24 + j) = [8, 6, 0, 0, 0].getD j 0)
    (hfirst : ∀ i, i < j → x.src (24 + i) = [8, 6, 0, 0, 0].getD i 0) : x.ihdrReject = some (24 + j) := by
  have hrules : ihdrRules = (List.range 5).map fun i => (24 + i, [8, 6, 0, 0, 0].getD i 0) := by decide
  rw [Inputs.ihdrReject, hrules, List.find?_map, Option.map_map, Option.map_eq_some_iff]
  refine ⟨j, List.find?_range_eq_some.mpr ⟨?_, List.mem_range.mpr hj, fun i hi => ?_⟩, rfl⟩
  · exact bne_iff_ne.mpr hbad
  · simpa using hfirst i hi

section
variable {s : State} (hsrc : s.inputs.srcAddr + s.inputs.srcLen ≤ s.cfg.bmBytes)
  (hdst : s.inputs.dstAddr + s.inputs.dstCap ≤ s.cfg.bmBytes) (hov : ¬ s.inputs.overlap)
include hsrc hdst hov

/-- PNG_PARSE with windows in BM that share no byte (43_png_chunk.md R360). -/
theorem exec_pngParse_of_windows : exec .pngParse s = match s.inputs.pngStream with
    | .error e => s.fail e
    | .ok (header, idat) =>
      if idat.length > s.inputs.dstCap then s.fail (.dstCap idat.length)
      else ((s.emit s.inputs.dstAddr idat.length idat).setResults
        { (s.emit s.inputs.dstAddr idat.length idat).res with ihdr := header }).ok :=
  (if_neg (Nat.not_lt.mpr hsrc)).trans ((if_neg (Nat.not_lt.mpr hdst)).trans ((if_neg hov).trans rfl))

theorem exec_pngParse_error {e : CmdError} (h : s.inputs.pngStream = .error e) :
    exec .pngParse s = .next (s.raise e) := by
  rw [exec_pngParse_of_windows hsrc hdst hov, h]
  rfl

theorem exec_pngParse_ok {header : Ihdr} {idat : List Byte} (h : s.inputs.pngStream = .ok (header, idat)) :
    exec .pngParse s = if idat.length > s.inputs.dstCap then s.fail (.dstCap idat.length)
      else ((s.emit s.inputs.dstAddr idat.length idat).setResults
        { (s.emit s.inputs.dstAddr idat.length idat).res with ihdr := header }).ok := by
  rw [exec_pngParse_of_windows hsrc hdst hov, h]

end

/-- Emitting `n` bytes, and writing the IHDR registers besides. -/
theorem emit_ihdr_frame (s : State) {n : Nat} {out : List Byte} (header : Ihdr) (hn : out.length = n) :
    OutputFrame n s ((s.emit s.inputs.dstAddr n out).setResults
      { (s.emit s.inputs.dstAddr n out).res with ihdr := header }).finish :=
  { commit_frame s s.pb (s.bm.write s.inputs.dstAddr out) s.ops { (s.emit s.inputs.dstAddr n out).res with ihdr := header } with
    pb := rfl, outLen := rfl, topdown := rfl, crcOut := rfl, outside := (emit_frame s hn).outside }

end Sys2Proof.Machine

/-! The obligations of 43_png_chunk.md on PNG_PARSE. -/

namespace Sys2Proof.Machine

/-- Settles O50: the loop runs over IHDR, the chunks and IEND, and the gathered bytes are emitted. -/
theorem pngParseReadsALegalStream : Obligations.PngParseReadsALegalStream := by
  refine ⟨by decide, fun s w h chunks iendData => ?_⟩
  intro x idat hsrc hdst hov hc hiend hstarts
  obtain ⟨hin, hholds⟩ := sourceStarts_iff.mp hstarts
  obtain ⟨hbefore, hend⟩ := holds_append.mp hholds
  rw [List.length_append] at hin
  obtain ⟨fuel, hstream⟩ := pngStream_of_chunks hc (sourceStarts_iff.mpr ⟨(Nat.le_add_right ..).trans hin, hbefore⟩)
  rw [Nat.zero_add] at hend
  have hok := exec_pngParse_ok hsrc hdst hov (hstream.trans (pngLoop_iend hiend hend hin fuel _ _))
  refine ⟨fun hcap => hok.trans (if_pos hcap), fun hcap => ?_⟩
  exact ⟨_, hok.trans (if_neg (Nat.not_lt.mpr hcap)), emit_ihdr_frame s _ rfl, rfl, rfl, fun k hk =>
    (emit_byte s x.dstAddr idat.length idat hk).trans (List.getD_eq_getElem idat 0 hk).symm⟩

/-- Settles O51: the loop reaches the chunk, and its first failing check is the error. -/
theorem pngParseRejectsABadChunk : Obligations.PngParseRejectsABadChunk := by
  intro s before x pos next hsrc hdst hov hc hstarts
  obtain ⟨fuel, hdr, idat, hstream⟩ := pngStream_of_before hc hstarts
  have hfail {e : CmdError} (h : x.chunkError pos = some e) : exec .pngParse s = .next (s.raise e) :=
    exec_pngParse_error hsrc hdst hov (hstream.trans (pngLoop_of_error h ..))
  have hchecks := chunkError_eq x pos
  refine ⟨fun h8 => hfail ?_, fun h8 hty => hfail ?_, fun h8 hty hnext => hfail ?_, fun hnext hty hcrc => hfail ?_⟩
  · rw [hchecks, if_pos h8]
  · rw [hchecks, if_neg (by omega), if_pos hty]
  · rw [hchecks, if_neg (by omega), if_neg (not_not.mpr hty), if_pos hnext]
  · rw [hchecks, if_neg (by omega), if_neg (not_not.mpr hty), if_neg (by omega), if_pos hcrc]

/-- Settles O52: window checks and signature in their order, and the first chunk read as IHDR. -/
theorem pngParseChecksWindowsSignatureAndIhdr : Obligations.PngParseChecksWindowsSignatureAndIhdr := by
  intro s x c1 c2 share c3 c4 signed c5 isIhdr accepted
  have hsigned : signed ↔ x.srcBytes 0 8 = pngSignature := by
    rw [srcBytes_eq_iff (n := 8) (bs := pngSignature) rfl]
    simp only [Nat.zero_add]
    rfl
  have hisIhdr : isIhdr ↔ x.srcBytes 12 4 = typeIhdr ∧ x.be32 8 = 13 := by
    rw [srcBytes_eq_iff (n := 4) (bs := typeIhdr) rfl]
    rfl
  have hfail (h : c3) {e : CmdError} (he : x.pngStream = .error e) : exec .pngParse s = .next (s.raise e) := by
    obtain ⟨⟨hsrc, hdst⟩, hov⟩ := h
    exact exec_pngParse_error hsrc hdst hov he
  have hfirst (h : c5) {e : CmdError} (he : x.firstChunk = .error e) : exec .pngParse s = .next (s.raise e) := by
    obtain ⟨⟨h3, h8⟩, hsig, hlen, hty, hcrc⟩ := h
    exact hfail h3 ((pngStream_of_first h8 (hsigned.mp hsig) (chunkError_eq_none hlen hty hcrc)).trans he)
  refine ⟨fun h1 => if_pos (Nat.not_le.mp h1), fun h1 h2 => ?_, fun ⟨hsrc, hdst⟩ hov => ?_, fun h3 h8 => ?_,
    fun ⟨h3, h8⟩ hsig => ?_, fun h5 hno => ?_, fun h5 hyes j hj hbad hbefore => ?_⟩
  · exact (if_neg (Nat.not_lt.mpr h1)).trans (if_pos (Nat.not_le.mp fun hdst => h2 ⟨h1, hdst⟩))
  · exact (if_neg (Nat.not_lt.mpr hsrc)).trans ((if_neg (Nat.not_lt.mpr hdst)).trans (if_pos hov))
  · exact hfail h3 (if_pos h8)
  · exact hfail h3 ((if_neg (Nat.not_lt.mpr h8)).trans (if_pos fun h => hsig (hsigned.mpr h)))
  · exact hfirst h5 (if_pos (not_and_or.mp fun h => hno (hisIhdr.mpr h)))
  · obtain ⟨hty, hlen⟩ := hisIhdr.mp hyes
    refine hfirst h5 ?_
    rw [Inputs.firstChunk, if_neg (by simp [hty, hlen]), ihdrReject_eq_some hj hbad hbefore]

end Sys2Proof.Machine

/-! SUPPORT. Rounding to the nearest integer, ties to even, and the number of bits of a significand (00_scope.md R11). -/

namespace Sys2Proof.Machine

theorem bitLength_eq_size (m : Nat) : bitLength m = m.size := by
  refine eq_of_forall_ge_iff fun n => ?_
  rw [Nat.size_le, bitLength]
  by_cases hm : m = 0
  · simp [hm]
  · rw [if_neg hm, ← Nat.log2_lt hm, Nat.succ_le_iff]

theorem bitLength_le {m n : Nat} : bitLength m ≤ n ↔ m < 2 ^ n := by rw [bitLength_eq_size, Nat.size_le]

theorem lt_bitLength {m n : Nat} : n < bitLength m ↔ 2 ^ n ≤ m := by rw [bitLength_eq_size, Nat.lt_size]

theorem bitLength_mul_two_pow {m : Nat} (hm : m ≠ 0) (k : Nat) : bitLength (m * 2 ^ k) = bitLength m + k := by
  rw [bitLength_eq_size, bitLength_eq_size, ← Nat.shiftLeft_eq, Nat.size_shiftLeft hm]

/-- `q` is the integer nearest to `x`, and even where two integers are as near. -/
def NearestInt (q : Nat) (x : ℚ) : Prop := |(q : ℚ) - x| ≤ 1 / 2 ∧ (|(q : ℚ) - x| = 1 / 2 → q % 2 = 0)

theorem nearestInt_self (q : Nat) : NearestInt q q := by simp [NearestInt]

/-- No integer is nearer, and another one as near means a tie. -/
theorem NearestInt.le {q : Nat} {x : ℚ} (h : NearestInt q x) (z : ℤ) :
    |(q : ℚ) - x| ≤ |(z : ℚ) - x| ∧ (|(z : ℚ) - x| = |(q : ℚ) - x| → (z : ℚ) ≠ q → q % 2 = 0) := by
  obtain ⟨hhalf, htie⟩ := h
  by_cases hz : z = q
  · subst hz
    simp
  · have hone : (1 : ℚ) ≤ |(z : ℚ) - q| := by
      have := Int.one_le_abs (sub_ne_zero.mpr hz)
      exact_mod_cast this
    have hsum : |(z : ℚ) - q| ≤ |(z : ℚ) - x| + |(q : ℚ) - x| := by
      rw [abs_sub_comm (q : ℚ) x]
      exact abs_sub_le ..
    exact ⟨by linarith, fun heq _ => htie (by linarith)⟩

theorem NearestInt.le_natCast {q n : Nat} {x : ℚ} (h : NearestInt q x) (hx : x ≤ n) : q ≤ n := by
  have := (abs_le.mp h.1).2
  have hlt : (q : ℚ) < (n + 1 : Nat) := by
    push_cast
    linarith
  exact Nat.lt_succ_iff.mp (by exact_mod_cast hlt)

theorem NearestInt.natCast_le {q n : Nat} {x : ℚ} (h : NearestInt q x) (hx : n ≤ x) : n ≤ q := by
  have := (abs_le.mp h.1).1
  have hlt : (n : ℚ) < (q + 1 : Nat) := by
    push_cast
    linarith
  exact Nat.lt_succ_iff.mp (by exact_mod_cast hlt)

theorem natCast_div_two_pow (n k : Nat) :
    (n : ℚ) / 2 ^ k = (n / 2 ^ k : Nat) + ((n % 2 ^ k : Nat) : ℚ) / 2 ^ k := by
  have hpow : (0 : ℚ) < 2 ^ k := by positivity
  rw [div_eq_iff hpow.ne', add_mul, div_mul_cancel₀ _ hpow.ne']
  exact_mod_cast (Nat.div_add_mod' n (2 ^ k)).symm

/-- The remainder as a fraction, compared with a half. -/
theorem fraction_half (r k : Nat) :
    ((r : ℚ) / 2 ^ k < 1 / 2 ↔ 2 * r < 2 ^ k) ∧ ((r : ℚ) / 2 ^ k = 1 / 2 ↔ 2 * r = 2 ^ k) := by
  have hpow : (0 : ℚ) < 2 ^ k := by positivity
  rw [div_lt_iff₀ hpow, div_eq_iff hpow.ne', ← Nat.cast_lt (α := ℚ), ← Nat.cast_inj (R := ℚ)]
  push_cast
  constructor <;> constructor <;> intro h <;> linarith

theorem shiftRoundEven_nearestInt (n k : Nat) : NearestInt (shiftRoundEven n k) ((n : ℚ) / 2 ^ k) := by
  have hpow : (0 : ℚ) < 2 ^ k := by positivity
  obtain ⟨hhalf, htie⟩ := fraction_half (n % 2 ^ k) k
  have hlt : ((n % 2 ^ k : Nat) : ℚ) / 2 ^ k < 1 :=
    (div_lt_one hpow).mpr (by exact_mod_cast Nat.mod_lt n (Nat.two_pow_pos k))
  have hnonneg : (0 : ℚ) ≤ ((n % 2 ^ k : Nat) : ℚ) / 2 ^ k := by positivity
  rw [NearestInt, natCast_div_two_pow, shiftRoundEven]
  generalize ((n % 2 ^ k : Nat) : ℚ) / 2 ^ k = f at hlt hhalf htie hnonneg ⊢
  generalize n / 2 ^ k = q
  split
  next hup =>
    have hge : 1 / 2 ≤ f := not_lt.mp (mt hhalf.mp (by omega))
    have hdist : |((q + 1 : Nat) : ℚ) - (q + f)| = 1 - f := by
      rw [Nat.cast_add, Nat.cast_one, add_sub_add_left_eq_sub, abs_of_nonneg (by linarith)]
    rw [hdist]
    refine ⟨by linarith, fun heq => ?_⟩
    have := htie.mp (by linarith)
    omega
  next hdown =>
    have hle : f ≤ 1 / 2 := by
      rcases Nat.lt_or_ge (2 * (n % 2 ^ k)) (2 ^ k) with hr | hr
      · exact (hhalf.mpr hr).le
      · exact (htie.mpr (by omega)).le
    have hdist : |(q : ℚ) - (q + f)| = f := by rw [sub_add_cancel_left, abs_neg, abs_of_nonneg hnonneg]
    rw [hdist]
    refine ⟨hle, fun heq => ?_⟩
    have := htie.mp heq
    omega

end Sys2Proof.Machine

/-! SUPPORT. The finite binary64 numbers: their values as rationals, and the nearest one (00_scope.md R11). -/

namespace Sys2Proof.Machine

theorem two_zpow_pos (e : ℤ) : (0 : ℚ) < 2 ^ e := zpow_pos (by norm_num) e

theorem two_pow_toNat_mul {e e₀ : ℤ} (h : e₀ ≤ e) : (2 : ℚ) ^ (e - e₀).toNat * 2 ^ e₀ = 2 ^ e := by
  rw [← zpow_natCast, Int.toNat_of_nonneg (by omega), ← zpow_add₀ (by norm_num), sub_add_cancel]

@[simp] theorem finValue_false (m : Nat) (e : ℤ) : finValue false m e = m * 2 ^ e := by simp [finValue]

@[simp] theorem finValue_true (m : Nat) (e : ℤ) : finValue true m e = -(m * 2 ^ e) := by simp [finValue]

@[simp] theorem finValue_zero (neg : Bool) (e : ℤ) : finValue neg 0 e = 0 := by simp [finValue]

theorem finValue_not (neg : Bool) (m : Nat) (e : ℤ) : finValue (!neg) m e = -finValue neg m e := by
  cases neg <;> simp

theorem abs_finValue (neg : Bool) (m : Nat) (e : ℤ) : |finValue neg m e| = m * 2 ^ e := by
  cases neg <;> simp [abs_of_pos (two_zpow_pos e)]

theorem finValue_mul (na nb : Bool) (ma mb : Nat) (ea eb : ℤ) :
    finValue na ma ea * finValue nb mb eb = finValue (na != nb) (ma * mb) (ea + eb) := by
  have hpow : (2 : ℚ) ^ (ea + eb) = 2 ^ ea * 2 ^ eb := zpow_add₀ (by norm_num) ..
  cases na <;> cases nb <;> simp [hpow] <;> ring

/-- A larger significand with a lower exponent. -/
theorem finValue_mul_two_pow (neg : Bool) (m : Nat) {e e₀ : ℤ} (h : e₀ ≤ e) :
    finValue neg (m * 2 ^ (e - e₀).toNat) e₀ = finValue neg m e := by
  have hpow := two_pow_toNat_mul h
  cases neg <;> simp [mul_assoc, hpow]

theorem signedUnits_mul (neg : Bool) (m : Nat) {e e₀ : ℤ} (h : e₀ ≤ e) :
    (signedUnits neg m e e₀ : ℚ) * 2 ^ e₀ = finValue neg m e := by
  rw [← finValue_mul_two_pow neg m h]
  cases neg <;> simp [signedUnits]

/-- A finite number whose unit is `2 ^ e₀` or more is a multiple of `2 ^ e₀`; any other is small. -/
theorem canonical_multiple_or_small (neg : Bool) {m : Nat} {e e₀ : ℤ} (hc : canonical64 m e) :
    (∃ z : ℤ, finValue neg m e = z * 2 ^ e₀) ∨ (-1074 < e₀ ∧ |finValue neg m e| < 2 ^ 52 * 2 ^ e₀) := by
  obtain ⟨hm, hlow, -, -⟩ := hc
  rcases le_or_gt e₀ e with h | h
  · exact .inl ⟨_, (signedUnits_mul neg m h).symm⟩
  · refine .inr ⟨by omega, ?_⟩
    have hm' : (m : ℚ) < 2 ^ 53 := by exact_mod_cast hm
    rw [abs_finValue]
    calc (m : ℚ) * 2 ^ e < 2 ^ 53 * 2 ^ e := mul_lt_mul_of_pos_right hm' (two_zpow_pos e)
      _ = 2 ^ 52 * 2 ^ (e + 1) := by rw [zpow_add_one₀ (by norm_num)]; ring
      _ ≤ 2 ^ 52 * 2 ^ e₀ := by
        have : (2 : ℚ) ^ (e + 1) ≤ 2 ^ e₀ := zpow_le_zpow_right₀ (by norm_num) (by omega)
        linarith

/-- `x` as a significand in units of `2 ^ e`: 53 bits, the first of them set unless the exponent is least. -/
def Scaled (x : ℚ) (e : ℤ) : Prop := 0 ≤ x ∧ x < 2 ^ 53 ∧ -1074 ≤ e ∧ (2 ^ 52 ≤ x ∨ e = -1074)

theorem Scaled.rounded {q : Nat} {x : ℚ} {e : ℤ} (hx : Scaled x e) (hq : NearestInt q x) :
    q ≤ 2 ^ 53 ∧ (2 ^ 52 ≤ q ∨ e = -1074) := by
  obtain ⟨-, hlt, -, hnorm⟩ := hx
  exact ⟨hq.le_natCast (by exact_mod_cast hlt.le), hnorm.imp_left fun h => hq.natCast_le (by exact_mod_cast h)⟩

/-- The integer nearest to a scaled significand is as near to it as any finite number. -/
theorem nearest_of_nearestInt {q : Nat} {x : ℚ} {e : ℤ} (hq : NearestInt q x) (hx : Scaled x e) {neg' : Bool} {m' : Nat}
    {e' : ℤ} (hc : canonical64 m' e') :
    |(q : ℚ) * 2 ^ e - x * 2 ^ e| ≤ |finValue neg' m' e' - x * 2 ^ e| ∧
      (|finValue neg' m' e' - x * 2 ^ e| = |(q : ℚ) * 2 ^ e - x * 2 ^ e| → finValue neg' m' e' ≠ q * 2 ^ e →
        q % 2 = 0) := by
  have hu := two_zpow_pos e
  have hscale (y : ℚ) : |y * 2 ^ e - x * 2 ^ e| = |y - x| * 2 ^ e := by rw [← sub_mul, abs_mul, abs_of_pos hu]
  rcases canonical_multiple_or_small neg' (e₀ := e) hc with ⟨z, hz⟩ | ⟨hlow, hsmall⟩
  · obtain ⟨hle, htie⟩ := hq.le z
    rw [hz, hscale, hscale]
    exact ⟨mul_le_mul_of_nonneg_right hle hu.le, fun heq hne =>
      htie (mul_right_cancel₀ hu.ne' heq) fun h => hne (by rw [h])⟩
  · obtain ⟨-, -, -, hx52⟩ := hx
    have hx52 : 2 ^ 52 ≤ x := hx52.resolve_right (by omega)
    have hle : |(q : ℚ) - x| ≤ x - 2 ^ 52 := by
      have h := (hq.le (2 ^ 52)).1
      rwa [Int.cast_pow, Int.cast_ofNat, abs_sub_comm (2 ^ 52) x, abs_of_nonneg (sub_nonneg.mpr hx52)] at h
    have hfar : |(q : ℚ) * 2 ^ e - x * 2 ^ e| < |finValue neg' m' e' - x * 2 ^ e| := by
      have hle' := mul_le_mul_of_nonneg_right hle hu.le
      rw [hscale, abs_sub_comm (finValue ..)]
      have h1 := le_abs_self (x * 2 ^ e - finValue neg' m' e')
      have h2 := le_abs_self (finValue neg' m' e')
      linarith
    exact ⟨hfar.le, fun heq => absurd heq hfar.ne'⟩

/-- The canonical form of a rounded significand; rounding may have carried it to `2 ^ 53`. -/
theorem exists_canonical {q : Nat} {e : ℤ} (hq : q ≤ 2 ^ 53) (hlow : -1074 ≤ e) (hnorm : 2 ^ 52 ≤ q ∨ e = -1074)
    (htop : e + bitLength q ≤ 1024) :
    ∃ m' e', canonical64 m' e' ∧ finValue false m' e' = q * 2 ^ e ∧ (q % 2 = 0 → m' % 2 = 0) := by
  rcases Nat.lt_or_ge q (2 ^ 53) with h | h
  · have h971 : e ≤ 971 := by
      rcases hnorm with h52 | rfl
      · have := lt_bitLength.mpr h52
        omega
      · norm_num
    exact ⟨q, e, ⟨h, hlow, h971, hnorm⟩, finValue_false q e, id⟩
  · have hbits := lt_bitLength.mpr h
    obtain rfl : q = 2 ^ 53 := by omega
    refine ⟨2 ^ 52, e + 1, ⟨by norm_num, by omega, by omega, .inl le_rfl⟩, ?_, fun _ => by norm_num⟩
    rw [finValue_false, zpow_add_one₀ (by norm_num)]
    push_cast
    ring

theorem nearestEven_neg {v y : ℚ} (h : nearestEven v y) : nearestEven (-v) (-y) := by
  obtain ⟨neg, m, e, hc, hy, hall⟩ := h
  refine ⟨!neg, m, e, hc, by rw [finValue_not, hy], fun neg' m' e' hc' => ?_⟩
  obtain ⟨hle, htie⟩ := hall (!neg') m' e' hc'
  rw [finValue_not] at hle htie
  have habs (a : ℚ) : |-a - v| = |a - -v| := by rw [← abs_neg]; congr 1; ring
  have habsy : |y - v| = |-y - -v| := by rw [← abs_neg]; congr 1; ring
  rw [habs, habsy] at hle htie
  exact ⟨hle, fun heq hne => htie heq fun h => hne (by rw [← h, neg_neg])⟩

/-- A significand rounded to the nearest integer gives the nearest finite number, unless it overflows. -/
theorem nearestEven_of_nearestInt {q : Nat} {x : ℚ} {e : ℤ} (hq : NearestInt q x) (hx : Scaled x e)
    (htop : e + bitLength q ≤ 1024) : nearestEven (x * 2 ^ e) (q * 2 ^ e) := by
  obtain ⟨hq53, hnorm⟩ := hx.rounded hq
  obtain ⟨m, e₁, hc, hval, heven⟩ := exists_canonical hq53 hx.2.2.1 hnorm htop
  refine ⟨false, m, e₁, hc, hval.symm, fun neg' m' e' hc' => ?_⟩
  obtain ⟨hle, htie⟩ := nearest_of_nearestInt hq hx (neg' := neg') hc'
  exact ⟨hle, fun heq hne => heven (htie heq hne)⟩

/-- The tie below `2 ^ 53` rounds up, for `2 ^ 53 - 1` is odd. -/
theorem carries_iff {q : Nat} {x : ℚ} (hq : NearestInt q x) (hq53 : q ≤ 2 ^ 53) :
    2 ^ 53 ≤ q ↔ (2 : ℚ) ^ 54 - 1 ≤ x * 2 := by
  obtain ⟨hhalf, htie⟩ := hq
  obtain ⟨hlo, hhi⟩ := abs_le.mp hhalf
  constructor
  · intro h
    have hq : ((2 ^ 53 : Nat) : ℚ) ≤ q := by exact_mod_cast h
    push_cast at hq
    linarith
  · intro hx
    by_contra hlt
    have hq : (q : ℚ) ≤ (2 ^ 53 - 1 : Nat) := by exact_mod_cast (show q ≤ 2 ^ 53 - 1 by omega)
    push_cast at hq
    have heven := htie (by rw [abs_sub_comm, abs_of_nonneg (by linarith)]; linarith)
    have hge : ((2 ^ 53 - 1 : Nat) : ℚ) ≤ q := by
      push_cast
      linarith
    have : 2 ^ 53 - 1 ≤ q := by exact_mod_cast hge
    omega

theorem overflowLimit_gt : (256 : ℚ) < 2 ^ 1024 - 2 ^ 970 := by
  have hpow : (2 : ℚ) ^ 8 ≤ 2 ^ 970 := pow_le_pow_right₀ (by norm_num) (by norm_num)
  have hsplit : (2 : ℚ) ^ 1024 = 2 ^ 54 * 2 ^ 970 := by rw [← pow_add]
  rw [hsplit, ← sub_one_mul]
  calc (256 : ℚ) < (2 ^ 54 - 1) * 2 ^ 8 := by norm_num
    _ ≤ (2 ^ 54 - 1) * 2 ^ 970 := mul_le_mul_of_nonneg_left hpow (by norm_num)

/-- A rounded significand overflows from the middle between the greatest finite number and `2 ^ 1024` on. -/
theorem overflow_iff {q : Nat} {x : ℚ} {e : ℤ} (hq : NearestInt q x) (hx : Scaled x e) :
    1024 < e + bitLength q ↔ (2 : ℚ) ^ 1024 - 2 ^ 970 ≤ x * 2 ^ e := by
  obtain ⟨hq53, hnorm⟩ := hx.rounded hq
  obtain ⟨-, hlt, -, hx52⟩ := hx
  have hbits : bitLength q ≤ 54 := bitLength_le.mpr (by omega)
  have hu : (0 : ℚ) < 2 ^ (970 : ℤ) := two_zpow_pos 970
  have h1024 : (2 : ℚ) ^ 1024 - 2 ^ 970 = (2 ^ 54 - 1) * 2 ^ (970 : ℤ) := by
    rw [sub_mul, one_mul, zpow_ofNat, ← pow_add]
  rw [h1024]
  rcases lt_trichotomy e 971 with he | rfl | he
  · have hpow : (2 : ℚ) ^ e ≤ 2 ^ (970 : ℤ) := zpow_le_zpow_right₀ (by norm_num) (by omega)
    have hsmall : x * 2 ^ e < (2 ^ 54 - 1) * 2 ^ (970 : ℤ) := by
      calc x * 2 ^ e < 2 ^ 53 * 2 ^ e := mul_lt_mul_of_pos_right hlt (two_zpow_pos e)
        _ ≤ 2 ^ 53 * 2 ^ (970 : ℤ) := by linarith
        _ ≤ (2 ^ 54 - 1) * 2 ^ (970 : ℤ) := mul_le_mul_of_nonneg_right (by norm_num) hu.le
    exact iff_of_false (by omega) hsmall.not_ge
  · have hbit : 1024 < (971 : ℤ) + bitLength q ↔ 2 ^ 53 ≤ q := by
      rw [← lt_bitLength]
      omega
    have hpow : (2 : ℚ) ^ (971 : ℤ) = 2 * 2 ^ (970 : ℤ) := by
      rw [show (971 : ℤ) = 970 + 1 by norm_num, zpow_add_one₀ (by norm_num), mul_comm]
    rw [hbit, hpow, ← mul_assoc, mul_le_mul_iff_left₀ hu, carries_iff hq hq53]
  · have hbit : 52 < bitLength q := lt_bitLength.mpr (hnorm.resolve_right (by omega))
    have hpow : (2 : ℚ) ^ (2 + 970 : ℤ) ≤ 2 ^ e := zpow_le_zpow_right₀ (by norm_num) (by omega)
    rw [zpow_add₀ (by norm_num)] at hpow
    have hx52 : (2 : ℚ) ^ 52 ≤ x := hx52.resolve_right (by omega)
    refine iff_of_true (by omega) ?_
    calc ((2 : ℚ) ^ 54 - 1) * 2 ^ (970 : ℤ) ≤ 2 ^ 54 * 2 ^ (970 : ℤ) :=
          mul_le_mul_of_nonneg_right (by norm_num) hu.le
      _ = 2 ^ 52 * (2 ^ (2 : ℤ) * 2 ^ (970 : ℤ)) := by rw [← mul_assoc]; norm_num
      _ ≤ 2 ^ 52 * 2 ^ e := mul_le_mul_of_nonneg_left hpow (by norm_num)
      _ ≤ x * 2 ^ e := mul_le_mul_of_nonneg_right hx52 (two_zpow_pos e).le

end Sys2Proof.Machine

/-! SUPPORT. `round`, `add` and `mul` of the model round their exact results (00_scope.md R11). -/

namespace Sys2Proof.Machine

/-- The exponent that leaves 53 bits of `m * 2 ^ e`, or the least one. -/
def roundExp (m : Nat) (e : ℤ) : ℤ := max (e + bitLength m - 53) (-1074)

theorem scaled_roundExp {m : Nat} (hm : m ≠ 0) (e : ℤ) : Scaled (m * 2 ^ (e - roundExp m e)) (roundExp m e) := by
  have hlt : m < 2 ^ bitLength m := bitLength_le.mp le_rfl
  have hpos : 0 < bitLength m := lt_bitLength.mpr (by omega)
  have hge : 2 ^ (bitLength m - 1) ≤ m := lt_bitLength.mp (by omega)
  have hexp : roundExp m e = e + bitLength m - 53 ∨ roundExp m e = -1074 := by
    unfold roundExp
    omega
  have hle : e + bitLength m - 53 ≤ roundExp m e := le_max_left ..
  have hlow : -1074 ≤ roundExp m e := le_max_right ..
  have hu := two_zpow_pos (e - roundExp m e)
  have hbound {n : ℤ} : (2 : ℚ) ^ n * 2 ^ (e - roundExp m e) = 2 ^ (n + (e - roundExp m e)) :=
    (zpow_add₀ (by norm_num) ..).symm
  refine ⟨by positivity, ?_, hlow, hexp.imp_left fun h => ?_⟩
  · calc (m : ℚ) * 2 ^ (e - roundExp m e) < 2 ^ (bitLength m : ℤ) * 2 ^ (e - roundExp m e) :=
          mul_lt_mul_of_pos_right (by rw [zpow_natCast]; exact_mod_cast hlt) hu
      _ = 2 ^ ((bitLength m : ℤ) + (e - roundExp m e)) := hbound
      _ ≤ 2 ^ (53 : ℤ) := zpow_le_zpow_right₀ (by norm_num) (by omega)
      _ = 2 ^ 53 := by norm_num
  · calc (2 : ℚ) ^ 52 = 2 ^ (52 : ℤ) := by norm_num
      _ ≤ 2 ^ (((bitLength m - 1 : Nat) : ℤ) + (e - roundExp m e)) :=
          zpow_le_zpow_right₀ (by norm_num) (by omega)
      _ = 2 ^ ((bitLength m - 1 : Nat) : ℤ) * 2 ^ (e - roundExp m e) := hbound.symm
      _ ≤ m * 2 ^ (e - roundExp m e) :=
          mul_le_mul_of_nonneg_right (by rw [zpow_natCast]; exact_mod_cast hge) hu.le

/-- `round` answers with the nearest integer of the scaled significand, or infinity when that overflows. -/
theorem round_eq (neg : Bool) {m : Nat} (hm : m ≠ 0) (e : ℤ) : ∃ q m₁ e₁,
    F64.round neg m e = (if 1024 < roundExp m e + bitLength q then .inf neg else .fin neg m₁ e₁) ∧
      finValue neg m₁ e₁ = finValue neg q (roundExp m e) ∧ NearestInt q (m * 2 ^ (e - roundExp m e)) := by
  rcases le_or_gt (roundExp m e) e with h | h
  · refine ⟨m * 2 ^ (e - roundExp m e).toNat, m, e, ?_, (finValue_mul_two_pow neg m h).symm, ?_⟩
    · have htop : roundExp m e + bitLength (m * 2 ^ (e - roundExp m e).toNat) = e + bitLength m := by
        rw [bitLength_mul_two_pow hm]
        omega
      rw [htop]
      unfold roundExp at h
      simp only [F64.round, if_neg hm, if_pos h]
    · have hexact : (m : ℚ) * 2 ^ (e - roundExp m e) = ((m * 2 ^ (e - roundExp m e).toNat : Nat) : ℚ) := by
        push_cast
        rw [← zpow_natCast, Int.toNat_of_nonneg (by omega)]
      rw [hexact]
      exact nearestInt_self _
  · refine ⟨shiftRoundEven m (roundExp m e - e).toNat, _, _, ?_, rfl, ?_⟩
    · unfold roundExp at h ⊢
      simp only [F64.round, if_neg hm, if_neg (not_le.mpr h)]
    · have hexact : (m : ℚ) * 2 ^ (e - roundExp m e) = (m : ℚ) / 2 ^ (roundExp m e - e).toNat := by
        rw [← zpow_natCast, Int.toNat_of_nonneg (by omega), div_eq_mul_inv, ← zpow_neg, neg_sub]
      rw [hexact]
      exact shiftRoundEven_nearestInt ..

theorem nearestEven_finValue (neg : Bool) {q : Nat} {x : ℚ} {e : ℤ} (h : nearestEven (x * 2 ^ e) (q * 2 ^ e)) :
    nearestEven ((if neg then -1 else 1) * x * 2 ^ e) (finValue neg q e) := by
  cases neg
  · simpa using h
  · simpa using nearestEven_neg h

theorem nearestEven_zero : nearestEven 0 0 :=
  ⟨false, 0, -1074, ⟨by norm_num, le_rfl, by norm_num, .inr rfl⟩, by simp, fun _ _ _ _ => ⟨by simp, fun _ _ => rfl⟩⟩

theorem round_roundsTo (neg : Bool) (m : Nat) (e : ℤ) : roundsTo neg (finValue neg m e) (F64.round neg m e) := by
  have hlimit := (show (0 : ℚ) < 256 by norm_num).trans overflowLimit_gt
  by_cases hm : m = 0
  · subst hm
    rw [roundsTo, finValue_zero, abs_zero, if_pos hlimit]
    exact ⟨0, 0, rfl, by simpa using nearestEven_zero⟩
  · obtain ⟨q, m₁, e₁, hround, hval, hq⟩ := round_eq neg hm e
    have hx := scaled_roundExp hm e
    have hexact : (m : ℚ) * 2 ^ e = m * 2 ^ (e - roundExp m e) * 2 ^ roundExp m e := by
      rw [mul_assoc, ← zpow_add₀ (by norm_num), sub_add_cancel]
    rw [roundsTo, abs_finValue, hround, hexact]
    by_cases htop : 1024 < roundExp m e + bitLength q
    · rw [if_neg (not_lt.mpr ((overflow_iff hq hx).mp htop)), if_pos htop]
    · rw [if_pos (not_le.mp (mt (overflow_iff hq hx).mpr htop)), if_neg htop]
      refine ⟨m₁, e₁, rfl, ?_⟩
      have hnear := nearestEven_finValue neg (nearestEven_of_nearestInt hq hx (not_lt.mp htop))
      rwa [hval, finValue, mul_assoc _ (m : ℚ), hexact, ← mul_assoc]

theorem finValue_sign_natAbs (z : ℤ) (e : ℤ) : finValue (decide (z < 0)) z.natAbs e = z * 2 ^ e := by
  rcases lt_or_ge z 0 with h | h
  · rw [decide_eq_true h, finValue_true, Nat.cast_natAbs, abs_of_neg h]
    push_cast
    ring
  · rw [decide_eq_false (not_lt.mpr h), finValue_false, Nat.cast_natAbs, abs_of_nonneg h]

section
variable (na nb : Bool) (ma mb : Nat) (ea eb : ℤ)

/-- The exact sum in units of the lower exponent, and what `add` answers. -/
theorem add_eq : ∃ (z e : ℤ), finValue na ma ea + finValue nb mb eb = z * 2 ^ e ∧
    (F64.fin na ma ea).add (.fin nb mb eb) =
      if z = 0 then .fin (na && nb) 0 0 else F64.round (decide (z < 0)) z.natAbs e := by
  refine ⟨_, min ea eb, ?_, rfl⟩
  rw [← signedUnits_mul na ma (min_le_left ea eb), ← signedUnits_mul nb mb (min_le_right ea eb)]
  push_cast
  ring

theorem add_roundsTo (h : finValue na ma ea + finValue nb mb eb ≠ 0) :
    roundsTo (decide (finValue na ma ea + finValue nb mb eb < 0)) (finValue na ma ea + finValue nb mb eb)
      ((F64.fin na ma ea).add (.fin nb mb eb)) := by
  obtain ⟨z, e, hsum, hadd⟩ := add_eq na nb ma mb ea eb
  have hz : z ≠ 0 := by
    rintro rfl
    exact h (by simp [hsum])
  have hsign : finValue na ma ea + finValue nb mb eb < 0 ↔ z < 0 := by
    rw [hsum, ← not_le, mul_nonneg_iff_of_pos_right (two_zpow_pos e), Int.cast_nonneg_iff, not_le]
  rw [hadd, if_neg hz, decide_eq_decide.mpr hsign, hsum, ← finValue_sign_natAbs]
  exact round_roundsTo ..

theorem add_of_sum_zero (h : finValue na ma ea + finValue nb mb eb = 0) :
    (F64.fin na ma ea).add (.fin nb mb eb) = .fin (na && nb) 0 0 := by
  obtain ⟨z, e, hsum, hadd⟩ := add_eq na nb ma mb ea eb
  have hz : z = 0 := by simpa [h, (two_zpow_pos e).ne'] using hsum
  rw [hadd, if_pos hz]

theorem mul_roundsTo : roundsTo (na != nb) (finValue na ma ea * finValue nb mb eb)
    ((F64.fin na ma ea).mul (.fin nb mb eb)) := by
  rw [finValue_mul]
  exact round_roundsTo ..

end

end Sys2Proof.Machine

/-! SUPPORT. The patterns of binary64 data, and ToPixelF (00_scope.md R11, R14; 42_convolution.md R322). -/

namespace Sys2Proof.Machine

/-- The three kinds of patterns, by the exponent and fraction fields as numbers. -/
theorem ofBits_eq (v : BitVec 64) : F64.ofBits v =
    if v.toNat / 2 ^ 52 % 2 ^ 11 = 2047 then
      if v.toNat % 2 ^ 52 = 0 then .inf (decide (2 ^ 63 ≤ v.toNat)) else .nan
    else if v.toNat / 2 ^ 52 % 2 ^ 11 = 0 then .fin (decide (2 ^ 63 ≤ v.toNat)) (v.toNat % 2 ^ 52) (-1074)
    else .fin (decide (2 ^ 63 ≤ v.toNat)) (2 ^ 52 + v.toNat % 2 ^ 52) ((v.toNat / 2 ^ 52 % 2 ^ 11 : Nat) - 1075) := by
  have hsign : v.getLsbD 63 = decide (2 ^ 63 ≤ v.toNat) := v.msb_eq_getLsbD_last.symm.trans (BitVec.msb_eq_decide v)
  simp only [F64.ofBits, hsign, BitVec.extractLsb'_toNat, Nat.shiftRight_eq_div_pow, pow_zero, Nat.div_one]

/-- `clamp(x, 0.0, 255.0)` of a finite datum, exactly. -/
theorem clamp255_fin (neg : Bool) (m : Nat) (e : ℤ) : ∃ neg' m' e', (F64.fin neg m e).clamp255 = .fin neg' m' e' ∧
    finValue neg' m' e' = min (max (finValue neg m e) 0) 255 := by
  have hu := two_zpow_pos e
  cases neg
  case true =>
    by_cases hm : m = 0
    · subst hm
      exact ⟨true, 0, e, rfl, by simp⟩
    · refine ⟨false, 0, 0, by simp [F64.clamp255, hm, F64.ofNat], ?_⟩
      rw [max_eq_right, min_eq_left (by norm_num), finValue_zero]
      rw [finValue_true]
      have : (0 : ℚ) ≤ m * 2 ^ e := by positivity
      linarith
  case false =>
    have hunit := two_zpow_pos (min e 0)
    have hbig : signedUnits false m e (min e 0) > signedUnits false 255 0 (min e 0) ↔ 255 < finValue false m e := by
      have h255 : (255 : ℚ) = finValue false 255 0 := by simp
      rw [h255, ← signedUnits_mul false m (min_le_left e 0), ← signedUnits_mul false 255 (min_le_right e 0),
        mul_lt_mul_iff_left₀ hunit, Int.cast_lt]
    have hnonneg : 0 ≤ finValue false m e := by
      rw [finValue_false]
      positivity
    rw [max_eq_left hnonneg]
    by_cases h : 255 < finValue false m e
    · refine ⟨false, 255, 0, by simp [F64.clamp255, hbig.mpr h, F64.ofNat], ?_⟩
      rw [min_eq_right h.le]
      simp
    · refine ⟨false, m, e, by simp [F64.clamp255, hbig.not.mpr h], ?_⟩
      rw [min_eq_left (not_lt.mp h)]

/-- `trunc` of a nonnegative finite datum is its floor. -/
theorem truncNat_eq_floor (m : Nat) (e : ℤ) : (F64.fin false m e).truncNat = ⌊finValue false m e⌋₊ := by
  have hsplit : e = (e.toNat : ℤ) - ((-e).toNat : ℤ) := by omega
  have hval : finValue false m e = ((m * 2 ^ e.toNat : Nat) : ℚ) / ((2 ^ (-e).toNat : Nat) : ℚ) := by
    push_cast
    rw [finValue_false, mul_div_assoc, ← zpow_natCast, ← zpow_natCast, ← zpow_sub₀ (by norm_num), ← hsplit]
  rw [hval, Nat.floor_div_eq_div, F64.truncNat]

/-- ToPixelF of a finite datum: the clamped value plus 1/2, rounded, and cut to its floor. -/
theorem toChannel_fin (neg : Bool) (m : Nat) (e : ℤ) :
    ∃ y : ℚ, nearestEven (min (max (finValue neg m e) 0) 255 + 1 / 2) y ∧
      (F64.fin neg m e).toChannel = some (BitVec.ofNat 8 ⌊y⌋₊) := by
  obtain ⟨neg', m', e', hclamp, hval⟩ := clamp255_fin neg m e
  set v := min (max (finValue neg m e) 0) 255 with hv
  have h0 : 0 ≤ v := le_min (le_max_right ..) (by norm_num)
  have h255 : v ≤ 255 := min_le_right ..
  have hsum : finValue neg' m' e' + finValue false 1 (-1) = v + 1 / 2 := by
    rw [hval, finValue_false]
    norm_num
  have hpos : 0 < v + 1 / 2 := by linarith
  have hrounds := add_roundsTo neg' false m' 1 e' (-1) (by rw [hsum]; exact hpos.ne')
  have hlimit := (show v + 1 / 2 ≤ 256 by linarith).trans_lt overflowLimit_gt
  rw [hsum, decide_eq_false hpos.not_gt, roundsTo, abs_of_pos hpos, if_pos hlimit] at hrounds
  obtain ⟨m₁, e₁, hadd, hnear⟩ := hrounds
  refine ⟨_, hnear, ?_⟩
  rw [F64.toChannel, if_neg (by simp), hclamp, hadd, truncNat_eq_floor]

end Sys2Proof.Machine

/-! The obligation of 00_scope.md §5 and 42_convolution.md §3 on binary64. -/

namespace Sys2Proof.Machine

/-- Settles O37: every exact sum and product is rounded to the nearest finite number by rounding its significand to the
nearest integer. -/
theorem binary64RoundsToNearestEven : Obligations.Binary64RoundsToNearestEven := by
  refine ⟨fun v => ?_, fun na nb ma mb ea eb => ?_, fun x => ?_, fun p q m e => ?_, fun n => ?_, rfl, by decide,
    by decide, toChannel_fin⟩
  · intro neg ex frac
    refine ⟨fun h => ?_, fun h => ?_, fun h0 h2047 => ?_⟩
    · rw [ofBits_eq, if_pos h]
    · exact ⟨_, _, by rw [ofBits_eq, if_neg (by omega), if_pos h], rfl⟩
    · refine ⟨_, _, by rw [ofBits_eq, if_neg (by omega), if_neg (by omega)], ?_⟩
      push_cast
      rfl
  · exact ⟨add_roundsTo na nb ma mb ea eb, fun h => ⟨0, add_of_sum_zero na nb ma mb ea eb h⟩,
      mul_roundsTo na nb ma mb ea eb⟩
  · cases x <;> exact ⟨rfl, rfl, rfl, rfl⟩
  · exact ⟨rfl, rfl, rfl, rfl, rfl, congrArg (fun b => if m = 0 then F64.nan else .inf b) bne_comm⟩
  · exact ⟨n, 0, rfl, by simp⟩

end Sys2Proof.Machine
